-- ==== Sys2Proof/Word.lean ====
section
/-! DEFINITION. Word.lean: the widths of the block's values (00_scope.md R4, R5; 30_encoding.md R50, R56). -/

namespace Sys2Proof

/-- An operand, a result, a count register, the clock period: `XLEN` = 32 bits, unsigned (00_scope.md R4, R5). -/
abbrev Word := BitVec 32

/-- A command word `CW`, 72 bits (30_encoding.md R50). -/
abbrev CommandWord := BitVec 72

/-- A response word `RW`, 72 bits (30_encoding.md R56). -/
abbrev ResponseWord := BitVec 72

end Sys2Proof
end

