-- ==== Sys2Proof/Config.lean ====
section
/-! DEFINITION. Config.lean: the parameters of a run (00_scope.md R4) and the two values the spec leaves free at
reset (10_state.md R22). `State` carries the parameters, so that a statement about every state is a statement about
every choice of them; no step changes them (log 4). -/

namespace Sys2Proof.Config

/-- When the PWM core may overwrite `UP` and `DOWN` (00_scope.md R4, 40_register_interface.md R76). -/
inductive LatchMode where
  /-- Never: the registers change only by `CONFIG`. -/
  | none
  /-- At any moment between two commands, any number of times. -/
  | betweenCommands
  /-- As `betweenCommands`, and also between the two register accesses of one `CONFIG` or `CAPTURE`. -/
  | betweenAccesses
  deriving DecidableEq, Repr

/-- The byte offsets of the two registers inside the mapped region (00_scope.md R4, 20_memory.md R32). -/
structure Layout where
  /-- `OFF_UP` -/
  offUp : Nat
  /-- `OFF_DOWN` -/
  offDown : Nat
  deriving DecidableEq, Repr

/-- The open parameters of 00_scope.md R4. -/
structure Params where
  layout : Layout
  latch : LatchMode
  deriving DecidableEq, Repr

/-- The spec's default layout, `OFF_UP` = 0x0 and `OFF_DOWN` = 0x4 (20_memory.md R32; DESIGN CHOICE of the spec, D8;
log 4). -/
def defaultLayout : Layout := { offUp := 0x0, offDown := 0x4 }

/-- The parameters `State.reset` has: the default layout, and the latch mode that 40_register_interface.md R76
recommends for claims about every run (DESIGN CHOICE, log 4). -/
def defaultParams : Params := { layout := defaultLayout, latch := .betweenAccesses }

/-- The contents of `UP` at reset: a free input of the run, not zero (10_state.md R22). It has no body: nothing can be
proved of its value (DESIGN CHOICE, log 1). -/
opaque resetUp : Word

/-- The contents of `DOWN` at reset: a free input of the run, not zero (10_state.md R22; DESIGN CHOICE, log 1). -/
opaque resetDown : Word

end Sys2Proof.Config
end

