-- ==== Sys2Proof/Machine/State.lean ====
section
/-! DEFINITION. Machine/State.lean: the whole state (10_state.md), what an input and an output of a step is, the
reasons a step can stop, and reset. The state tuple of the spec is `up` to `trace`; the fields after it carry the
parameters of the run and the inputs and outputs of a step, and are no state of the converter (log 2, 3, 4, 6). -/

namespace Sys2Proof.Machine

/-- The lifecycle state `LSTATE` (10_state.md R14). -/
inductive LState where
  | unattached
  | attached
  | detached
  deriving DecidableEq, Repr

/-- The error kinds (60_exceptions.md R130). -/
inductive ErrorKind where
  | invalidDutyCycle
  | captureUnavailable
  | clockUnavailable
  | resourceUnavailable
  | detachError
  | illegalCommand
  deriving DecidableEq, Repr

/-- What a success response carries (30_encoding.md R58). -/
inductive Payload where
  /-- `()`, the payload of `CONFIG`, `ATTACH` and `DETACH`. -/
  | unit
  /-- `ClockPeriod`, the payload of `CLKPER`. -/
  | clockPeriod (ns : Word)
  /-- `Measurement`, the payload of `CAPTURE`. -/
  | measurement (dutyNs periodNs : Word)
  deriving DecidableEq, Repr

/-- A response in the abstract: `Ok(payload)` or `Err(kind)` (30_encoding.md R56). -/
inductive Response where
  | ok (p : Payload)
  | err (k : ErrorKind)
  deriving DecidableEq, Repr

/-- The events of the trace (10_state.md R20). -/
inductive Event where
  | mapRegion
  | clkAcquire
  | clkGetRate (r : Option Word)
  | chanRegister
  | clkDisable
  | clkRelease
  | unmapRegion
  | chanUnregister
  | regWrite (off : Nat) (v : Word)
  | regRead (off : Nat) (v : Word)
  | latch (u d : Word)
  deriving DecidableEq, Repr

/-- The platform's answers for one step, the record `plat` (44_lifecycle.md R111). -/
structure Plat where
  /-- The resource descriptor `(base, len)`, or none when no memory region is described. -/
  region : Option (Nat × Nat)
  /-- Whether mapping the region succeeds. -/
  mapOk : Bool
  /-- Whether a clock handle can be acquired. -/
  clock : Bool
  /-- The answer of `get_rate_hz()`, or none when the rate cannot be obtained. -/
  rate : Option Word
  /-- Whether some collaborator call made by `DETACH` reports a failure. -/
  detachFault : Bool
  deriving DecidableEq, Repr

/-- A platform that offers nothing and reports nothing: the value of `plat` before any command (log 3). -/
def Plat.silent : Plat :=
  { region := none, mapOk := false, clock := false, rate := none, detachFault := false }

/-- The counts of one latch by the PWM core (40_register_interface.md R76). -/
structure Latch where
  up : Word
  down : Word
  deriving DecidableEq, Repr

/-- One input of the machine. -/
inductive HostInput where
  /-- The host issues a command word, with the platform's answers for its step (00_scope.md R3) and the latches the
  PWM core offers between the two register accesses of the command, in order (40_register_interface.md R76). -/
  | command (cw : CommandWord) (plat : Plat) (mid : List Latch)
  /-- The PWM core offers a latch between two commands (40_register_interface.md R76). -/
  | latch (l : Latch)
  deriving DecidableEq, Repr

/-- The machine: the state tuple of 10_state.md, then the fields of the model. -/
structure State where
  /-- `UP` (10_state.md R10). -/
  up : Word
  /-- `DOWN` (10_state.md R11). -/
  down : Word
  /-- `CLK_NS`, or no value (10_state.md R13). -/
  clkNs : Option Word
  /-- `LSTATE` (10_state.md R14). -/
  lstate : LState
  /-- `BASE`, or none (10_state.md R15). -/
  base : Option Nat
  /-- `REGION_LEN`, or none (10_state.md R15). -/
  regionLen : Option Nat
  /-- `CIDX` (10_state.md R19). -/
  cidx : Nat
  /-- `TRACE`, oldest event first (10_state.md R20). -/
  trace : List Event
  /-- Model's own: the responses returned to the host, oldest first. No command reads it (log 6). -/
  responses : List Response
  /-- The parameters of the run, which no step changes (00_scope.md R4; log 4). -/
  params : Config.Params
  /-- Model's own: the platform's answers for the command being run (44_lifecycle.md R111; log 3). -/
  plat : Plat
  /-- Model's own: the latches offered between the accesses of the command being run (40_register_interface.md R76;
  log 3, log 5). -/
  midLatches : List Latch
  /-- Model's own: the inputs not yet taken, oldest first (log 2). -/
  pending : List HostInput
  deriving DecidableEq, Repr

/-- Why the machine stops with a fault. The hardware has no fault (60_exceptions.md R140): these two are the model's,
for states that 10_state.md R16 excludes and no run reaches (log 7). -/
inductive Fault where
  /-- Raised by `CONFIG` and `CAPTURE` when `LSTATE` is `Attached` and `CLK_NS` has no value. Safe. -/
  | noClockPeriod
  /-- Raised by the register port when `LSTATE` is `Attached` and `BASE` has no value. Safe. -/
  | noMapping
  deriving DecidableEq, Repr

/-- Why the spec gives no meaning (`refuse`, 00_scope.md R9; 60_exceptions.md R137). Every refusal is safe: no claim is
made about a refused run. -/
inductive Refusal where
  /-- Raised by `exec` for a command the model gives no meaning; no command of this model. Safe. -/
  | notModelled (mnemonic : String)
  /-- Raised by `CONFIG` in `Unattached` (42_config.md R91). Safe. -/
  | configUnattached
  /-- Raised by `CONFIG` in `Detached` (42_config.md R91; U2). Safe. -/
  | configDetached
  /-- Raised by `CAPTURE` in `Unattached` (43_capture.md R102). Safe. -/
  | captureUnattached
  /-- Raised by `CAPTURE` in `Detached` (43_capture.md R102; U2). Safe. -/
  | captureDetached
  /-- Raised by `ATTACH` in `Attached` (44_lifecycle.md R118). Safe. -/
  | attachAttached
  /-- Raised by `ATTACH` in `Detached` (44_lifecycle.md R118). Safe. -/
  | attachDetached
  /-- Raised by `DETACH` in `Unattached` (44_lifecycle.md R123). Safe. -/
  | detachUnattached
  /-- Raised by `DETACH` in `Detached`, the double detach (44_lifecycle.md R125; U1). Safe. -/
  | doubleDetach
  /-- Raised by the register port outside `Attached` (40_register_interface.md R74). Safe. -/
  | portNotAttached
  /-- Raised by the register port at an offset that is neither `OFF_UP` nor `OFF_DOWN`
  (40_register_interface.md R73; U3). Safe. -/
  | undefinedOffset (off : Nat)
  /-- Raised by a memory access at an address that is neither register's (20_memory.md R33). Safe. -/
  | undefinedAddress (addr : Nat)
  deriving DecidableEq, Repr

/-- The two ways an operation can stop. -/
inductive Stop where
  | fault (f : Fault)
  | refused (r : Refusal)
  deriving DecidableEq, Repr

/-- A fresh converter (10_state.md R22, 70_reset_and_hazards.md R150) for every choice of the parameters and of the
contents of `UP` and `DOWN`, which are two free inputs of the run. -/
def State.resetWith (params : Config.Params) (up down : Word) : State :=
  { up := up, down := down, clkNs := none, lstate := .unattached, base := none, regionLen := none, cidx := 0,
    trace := [], responses := [], params := params, plat := Plat.silent, midLatches := [], pending := [] }

/-- The machine right after reset: the default parameters (log 4), and the unspecified contents of `UP` and `DOWN` as
the two constants without a body (log 1). -/
def State.reset : State :=
  State.resetWith Config.defaultParams Config.resetUp Config.resetDown

end Sys2Proof.Machine
end

