-- ==== Sys2Proof/Machine/Operands.lean ====
section
/-! DEFINITION. Machine/Operands.lean: the arithmetic on operands and counts, all of it unsigned and 32 bits wide
(00_scope.md R5 to R7). A divisor comes with the proof that it is not zero, so that no rule can evaluate
`udiv(a, 0)` (00_scope.md R6). -/

namespace Sys2Proof.Machine

/-- `NS_PER_S`, the dividend of the clock divider (00_scope.md R4). -/
def nsPerS : Word := 1_000_000_000

/-- `udiv(a, b)`: unsigned division that discards the remainder (00_scope.md R6). -/
def udiv (a b : Word) (_ : b ≠ 0) : Word := a / b

/-- `a -% b` (00_scope.md R7). -/
def subWrap (a b : Word) : Word := a - b

/-- `a +% b` (00_scope.md R7). -/
def addWrap (a b : Word) : Word := a + b

theorem subWrap_ne_zero {a b : Word} (h : b ≠ a) : subWrap a b ≠ 0 := by
  intro hz
  have hz' : a - b = 0 := hz
  exact h (by bv_omega)

/-- `clock_period_ns(r)`: the period, or `ClockUnavailable` for a zero rate (41_clock_model.md R81, R82). -/
def clockPeriodNs (rateHz : Word) : Except ErrorKind Word :=
  if h : rateHz = 0 then .error .clockUnavailable else .ok (udiv nsPerS rateHz h)

/-- `up_count = clk_ns / duty_ns` (42_config.md R93). -/
def upCount (clk dutyNs : Word) (h : dutyNs ≠ 0) : Word :=
  udiv clk dutyNs h

/-- `down_count = clk_ns / (clk_ns -% duty_ns)` (42_config.md R93; wrapping in the extended domain, R96, log 8). -/
def downCount (clk dutyNs : Word) (h : dutyNs ≠ clk) : Word :=
  udiv clk (subWrap clk dutyNs) (subWrap_ne_zero h)

/-- `up_count + down_count`, the wrapping 32-bit sum (43_capture.md R107; log 9). -/
def countSum (u d : Word) : Word :=
  addWrap u d

/-- `duty_ns = clk_ns / up_count` (43_capture.md R105). -/
def capturedDuty (clk u : Word) (h : u ≠ 0) : Word :=
  udiv clk u h

/-- `period_ns = clk_ns / (up_count + down_count)` (43_capture.md R105). -/
def capturedPeriod (clk s : Word) (h : s ≠ 0) : Word :=
  udiv clk s h

end Sys2Proof.Machine
end

