-- ==== Sys2Proof/Machine/Flags.lean ====
section
/-! DEFINITION. Machine/Flags.lean: the block has no flags and no condition codes (10_state.md R18). What stands in
their place: the conditions a command tests before it divides, and the status with which it answers. -/

namespace Sys2Proof.Machine

/-- The two failure cases of `CONFIG` (42_config.md R92). -/
abbrev DutyInvalid (clk dutyNs : Word) : Prop :=
  dutyNs = 0 ∨ dutyNs = clk

/-- The two failure cases of `CAPTURE`, of the count read from `UP` and the sum (43_capture.md R103). -/
abbrev CountsUnavailable (u s : Word) : Prop :=
  u = 0 ∨ s = 0

/-- `LayoutOK(len)`, the validation of the register layout at attach time (44_lifecycle.md R113; log 10). -/
abbrev LayoutOK (layout : Config.Layout) (len : Nat) : Prop :=
  layout.offUp % 4 = 0 ∧ layout.offDown % 4 = 0 ∧ layout.offUp + 4 ≤ len ∧ layout.offDown + 4 ≤ len ∧
    layout.offUp ≠ layout.offDown

/-- The status code of an error kind (60_exceptions.md R130). -/
def ErrorKind.code : ErrorKind → BitVec 8
  | .invalidDutyCycle => 0x01
  | .captureUnavailable => 0x02
  | .clockUnavailable => 0x03
  | .resourceUnavailable => 0x04
  | .detachError => 0x05
  | .illegalCommand => 0x06

/-- The status field `RW[71:64]` (30_encoding.md R56). -/
def Response.status : Response → BitVec 8
  | .ok _ => 0x00
  | .err k => k.code

/-- The payload values `V0` and `V1`, zero where there is none (30_encoding.md R58). -/
def Response.values : Response → Word × Word
  | .ok .unit => (0, 0)
  | .ok (.clockPeriod ns) => (ns, 0)
  | .ok (.measurement dutyNs periodNs) => (dutyNs, periodNs)
  | .err _ => (0, 0)

/-- The response word `status ‖ V0 ‖ V1` (30_encoding.md R56). -/
def Response.word (r : Response) : ResponseWord :=
  r.status ++ r.values.1 ++ r.values.2

/-- The numeric code of a lifecycle state (10_state.md R14); 3 is never held. -/
def LState.code : LState → BitVec 2
  | .unattached => 0
  | .attached => 1
  | .detached => 2

end Sys2Proof.Machine
end

