-- ==== Sys2Proof/Machine/Ops.lean ====
section
/-! DEFINITION. Machine/Ops.lean: the operations every command is made of (the primitives of 00_scope.md R8): events,
responses and errors, the memory and the register port, the PWM core's latch. -/

namespace Sys2Proof.Machine

/-- `emit E` (00_scope.md R8). -/
def State.emit (e : Event) (s : State) : State :=
  { s with trace := s.trace ++ [e] }

/-- The end of a command that has a step: exactly one response, and `CIDX <- CIDX + 1` (10_state.md R19,
30_encoding.md R56). -/
def State.respond (r : Response) (s : State) : State :=
  { s with responses := s.responses ++ [r], cidx := s.cidx + 1 }

/-- `raise K`, the block's only exception entry: it ends the command with the response `Err(K)`, writes nothing but
`CIDX`, saves nothing and transfers control nowhere, so there is no return from it (00_scope.md R8;
60_exceptions.md R140, R141). -/
def State.raise (k : ErrorKind) (s : State) : State :=
  s.respond (.err k)

/-- `return Ok(...)` (00_scope.md R8). -/
def State.finish (p : Payload) (s : State) : State :=
  s.respond (.ok p)

/-- The outcome of an operation that stopped. -/
def Stop.outcome : Stop → Host.Outcome State Fault Refusal
  | .fault f => .fault f
  | .refused r => .refused r

/-! ### The memory (20_memory.md R30 to R34): the two count registers and nothing more -/

/-- The two count registers (10_state.md R12). -/
inductive CountReg where
  | up
  | down
  deriving DecidableEq, Repr

/-- The register at a byte address: `BASE + OFF_UP` or `BASE + OFF_DOWN`, only while `Attached`
(20_memory.md R31, R33). -/
def State.regAt (addr : Nat) (s : State) : Except Stop CountReg :=
  match s.lstate, s.base with
  | .unattached, _ => .error (.refused .portNotAttached)
  | .detached, _ => .error (.refused .portNotAttached)
  | .attached, none => .error (.fault .noMapping)
  | .attached, some b =>
    if addr = b + s.params.layout.offUp then .ok .up
    else if addr = b + s.params.layout.offDown then .ok .down
    else .error (.refused (.undefinedAddress addr))

/-- `MemRead(addr, 4)`: it has no side effect (20_memory.md R33, R39). -/
def State.memRead (addr : Nat) (s : State) : Except Stop Word :=
  match s.regAt addr with
  | .error e => .error e
  | .ok .up => .ok s.up
  | .ok .down => .ok s.down

/-- `MemWrite(addr, 4, v)`: all 32 bits are replaced (20_memory.md R34). -/
def State.memWrite (addr : Nat) (v : Word) (s : State) : Except Stop State :=
  match s.regAt addr with
  | .error e => .error e
  | .ok .up => .ok { s with up := v }
  | .ok .down => .ok { s with down := v }

/-! ### The register port (40_register_interface.md R70 to R75) -/

/-- The effective address `BASE + off` of a port access: only while `Attached` (R74), only at `OFF_UP` or `OFF_DOWN`
(R73), with no other addressing mode (R70). -/
def State.portAddress (off : Nat) (s : State) : Except Stop Nat :=
  match s.lstate with
  | .unattached => .error (.refused .portNotAttached)
  | .detached => .error (.refused .portNotAttached)
  | .attached =>
    if off = s.params.layout.offUp ∨ off = s.params.layout.offDown then
      match s.base with
      | none => .error (.fault .noMapping)
      | some b => .ok (b + off)
    else .error (.refused (.undefinedOffset off))

/-- `RegRead32(off)` (40_register_interface.md R71). -/
def State.regRead32 (off : Nat) (s : State) : Except Stop (Word × State) :=
  match s.portAddress off with
  | .error e => .error e
  | .ok addr =>
    match s.memRead addr with
    | .error e => .error e
    | .ok v => .ok (v, s.emit (.regRead off v))

/-- `RegWrite32(off, v)` (40_register_interface.md R72). -/
def State.regWrite32 (off : Nat) (v : Word) (s : State) : Except Stop State :=
  match s.portAddress off with
  | .error e => .error e
  | .ok addr =>
    match s.memWrite addr v with
    | .error e => .error e
    | .ok t => .ok (t.emit (.regWrite off v))

/-! ### The PWM core's latch (40_register_interface.md R76) -/

/-- `LATCH(u, d)`: the PWM core replaces both registers at once (R76). -/
def State.latch (l : Latch) (s : State) : State :=
  { s with up := l.up, down := l.down }.emit (.latch l.up l.down)

/-- Any number of latches, in order. -/
def State.latchAll : List Latch → State → State
  | [], s => s
  | l :: ls, s => (s.latch l).latchAll ls

/-- The latches that happen between the two register accesses of the command being run: those offered, if the
parameter `LATCH` is `between_accesses`, else none (R76; log 5). -/
def State.admittedMid (s : State) : List Latch :=
  match s.params.latch with
  | .none => []
  | .betweenCommands => []
  | .betweenAccesses => s.midLatches

/-- What the PWM core does between the two register accesses of one command (R76). -/
def State.latchBetweenAccesses (s : State) : State :=
  s.latchAll s.admittedMid

/-- A latch offered between two commands: it happens unless the parameter `LATCH` is `none`, in every lifecycle state
(R76; log 5). -/
def State.latchBetweenCommands (l : Latch) (s : State) : State :=
  match s.params.latch with
  | .none => s
  | .betweenCommands => s.latch l
  | .betweenAccesses => s.latch l

end Sys2Proof.Machine
end

