-- ==== Sys2Proof/Machine/Channel.lean ====
section
/-! DEFINITION. Machine/Channel.lean: the scaler `CONFIG` (42_config.md) and the inverter `CAPTURE` (43_capture.md). -/

namespace Sys2Proof.Machine

/-- The clock period of the attached channel. `un` and `de` are the refusals in `Unattached` and `Detached`: a command
on the channel has a step only while `Attached` (42_config.md R91, 43_capture.md R102). -/
def State.channelClock (un de : Refusal) (s : State) : Except Stop Word :=
  match s.lstate, s.clkNs with
  | .unattached, _ => .error (.refused un)
  | .detached, _ => .error (.refused de)
  | .attached, none => .error (.fault .noClockPeriod)
  | .attached, some clk => .ok clk

/-- The two register writes of `CONFIG`, `UP` first, with what the PWM core latches between them
(42_config.md R94, 40_register_interface.md R76). -/
def State.writeCounts (u d : Word) (s : State) : Except Stop State :=
  match s.regWrite32 s.params.layout.offUp u with
  | .error e => .error e
  | .ok t => t.latchBetweenAccesses.regWrite32 s.params.layout.offDown d

/-- The two register reads of `CAPTURE`, `UP` first, with what the PWM core latches between them
(43_capture.md R101, 40_register_interface.md R76). -/
def State.readCounts (s : State) : Except Stop (Word × Word × State) :=
  match s.regRead32 s.params.layout.offUp with
  | .error e => .error e
  | .ok (u, t) =>
    match t.latchBetweenAccesses.regRead32 s.params.layout.offDown with
    | .error e => .error e
    | .ok (d, t') => .ok (u, d, t')

/-- `CONFIG duty_ns, period_ns`: both failure tests come before either write (42_config.md R98), and `period_ns` takes
no part in anything (R95). -/
def execConfig (dutyNs _periodNs : Word) (s : State) : Host.Outcome State Fault Refusal :=
  match s.channelClock .configUnattached .configDetached with
  | .error e => e.outcome
  | .ok clk =>
    if h : DutyInvalid clk dutyNs then .next (s.raise .invalidDutyCycle)
    else
      match s.writeCounts (upCount clk dutyNs fun z => h (.inl z)) (downCount clk dutyNs fun z => h (.inr z)) with
      | .error e => e.outcome
      | .ok t => .next (t.finish .unit)

/-- `CAPTURE timeout`: both reads come before either failure test (43_capture.md R101), and `timeout` takes no part in
anything (R104). -/
def execCapture (_timeout : Word) (s : State) : Host.Outcome State Fault Refusal :=
  match s.channelClock .captureUnattached .captureDetached with
  | .error e => e.outcome
  | .ok clk =>
    match s.readCounts with
    | .error e => e.outcome
    | .ok (u, d, t) =>
      if h : CountsUnavailable u (countSum u d) then .next (t.raise .captureUnavailable)
      else
        .next (t.finish (.measurement (capturedDuty clk u fun z => h (.inl z))
          (capturedPeriod clk (countSum u d) fun z => h (.inr z))))

end Sys2Proof.Machine
end

