-- ==== Sys2Proof/Machine/Clock.lean ====
section
/-! DEFINITION. Machine/Clock.lean: the clock divider as a command (41_clock_model.md). -/

namespace Sys2Proof.Machine

/-- `CLKPER rate_hz`: legal in every lifecycle state; it reads no state and writes only `CIDX` and its response
(41_clock_model.md R80, R84). -/
def execClkper (rateHz : Word) (s : State) : Host.Outcome State Fault Refusal :=
  match clockPeriodNs rateHz with
  | .error k => .next (s.raise k)
  | .ok q => .next (s.finish (.clockPeriod q))

end Sys2Proof.Machine
end

