-- ==== Sys2Proof/Machine/Lifecycle.lean ====
section
/-! DEFINITION. Machine/Lifecycle.lean: the lifecycle controller, `ATTACH` and `DETACH` (44_lifecycle.md). -/

namespace Sys2Proof.Machine

/-- Step 1 of `ATTACH`: the mapped region, if one is described, mapping succeeds and the layout passes validation
(44_lifecycle.md R112, R113). -/
def State.mappable (s : State) : Option (Nat × Nat) :=
  match s.plat.region with
  | none => none
  | some (base, len) => if s.plat.mapOk = true ∧ LayoutOK s.params.layout len then some (base, len) else none

/-- Step 3 of `ATTACH`: the clock period from the rate the clock service gave (44_lifecycle.md R114). -/
def attachPeriod (rate : Option Word) : Except ErrorKind Word :=
  match rate with
  | none => .error .clockUnavailable
  | some r => clockPeriodNs r

/-- Step 4 of `ATTACH`: construct the channel and register it (44_lifecycle.md R115). -/
def State.construct (q : Word) (base len : Nat) (s : State) : State :=
  { s with clkNs := some q, base := some base, regionLen := some len, lstate := .attached }.emit .chanRegister

/-- The attach sequence from `Unattached`: the first failing step decides, and what earlier steps acquired is released
in reverse order (44_lifecycle.md R110, R116). -/
def State.attachSequence (s : State) : State :=
  match s.mappable with
  | none => s.raise .resourceUnavailable
  | some (base, len) =>
    let mapped := s.emit .mapRegion
    if s.plat.clock = true then
      let asked := (mapped.emit .clkAcquire).emit (.clkGetRate s.plat.rate)
      match attachPeriod s.plat.rate with
      | .error k => ((asked.emit .clkRelease).emit .unmapRegion).raise k
      | .ok q => (asked.construct q base len).finish .unit
    else (mapped.emit .unmapRegion).raise .clockUnavailable

/-- `ATTACH`: it has a step only in `Unattached` (44_lifecycle.md R110, R118). -/
def execAttach (s : State) : Host.Outcome State Fault Refusal :=
  match s.lstate with
  | .unattached => .next s.attachSequence
  | .attached => .refused .attachAttached
  | .detached => .refused .attachDetached

/-- The teardown of `DETACH`: the clock, then the mapping, then the registration, and `Detached` whatever a
collaborator reports (44_lifecycle.md R120, R121, R122). -/
def State.teardown (s : State) : State :=
  { ((((s.emit .clkDisable).emit .clkRelease).emit .unmapRegion).emit .chanUnregister) with
    clkNs := none, base := none, regionLen := none, lstate := .detached }

/-- `DETACH`: it has a step only in `Attached`; a reported failure is returned at the end and undoes nothing
(44_lifecycle.md R120, R123, R124, R125). -/
def execDetach (s : State) : Host.Outcome State Fault Refusal :=
  match s.lstate with
  | .unattached => .refused .detachUnattached
  | .attached =>
    .next (s.teardown.respond (if s.plat.detachFault = true then .err .detachError else .ok .unit))
  | .detached => .refused .doubleDetach

end Sys2Proof.Machine
end

