-- ==== Sys2Proof/Syntax.lean ====
section
/-! DEFINITION. Syntax.lean: the five commands of the opcode map (30_encoding.md R52) with the operands of R54. -/

namespace Sys2Proof

/-- A command with its operands. One constructor per row of spec/opcode_table.json; an operand field that carries no
value is no argument. -/
inductive Instr where
  /-- `CLKPER rate_hz` (41_clock_model.md R80). -/
  | clkper (rateHz : Word)
  /-- `CONFIG duty_ns, period_ns` (42_config.md R90). -/
  | config (dutyNs periodNs : Word)
  /-- `CAPTURE timeout` (43_capture.md R100). -/
  | capture (timeout : Word)
  /-- `ATTACH` (44_lifecycle.md R110). -/
  | attach
  /-- `DETACH` (44_lifecycle.md R120). -/
  | detach
  deriving DecidableEq, Repr

end Sys2Proof
end

