-- ==== Sys2Proof/Machine/Dispatch.lean ====
section
/-! DEFINITION. Machine/Dispatch.lean: one arm per command, each a call of its meaning. -/

namespace Sys2Proof.Machine

def exec (i : Instr) (s : State) : Host.Outcome State Fault Refusal :=
  match i with
  | .clkper rateHz => Sys2Proof.Machine.execClkper rateHz s
  | .config dutyNs periodNs => Sys2Proof.Machine.execConfig dutyNs periodNs s
  | .capture timeout => Sys2Proof.Machine.execCapture timeout s
  | .attach => Sys2Proof.Machine.execAttach s
  | .detach => Sys2Proof.Machine.execDetach s

end Sys2Proof.Machine
end

