-- ==== Sys2Proof/WellFormed.lean ====
section
/-! DEFINITION. WellFormed.lean: the three formats of a command word and what each asks of the operand fields
(30_encoding.md R51, R55). An operand value is never ill formed (R55): a term of `Instr` always meets its format, and
what the check refuses is a pair of raw fields. -/

namespace Sys2Proof

/-- The formats of 30_encoding.md R51. -/
inductive Format where
  /-- `AB`: both fields carry an operand. -/
  | ab
  /-- `A0`: `A` carries an operand, `B` must be zero. -/
  | a0
  /-- `00`: both fields must be zero. -/
  | zz
  deriving DecidableEq, Repr

/-- The raw operand fields of a command under a format. -/
structure RawOperands where
  format : Format
  a : Word
  b : Word
  deriving DecidableEq, Repr

/-- Each must-be-zero field of the format is zero (30_encoding.md R51, R55). -/
def RawOperands.wf (r : RawOperands) : Bool :=
  match r.format with
  | .ab => true
  | .a0 => r.b == 0
  | .zz => r.a == 0 && r.b == 0

/-- The operand fields of a command: its format, `A` and `B` (30_encoding.md R51, R54). -/
def Instr.rawOperands : Instr → RawOperands
  | .clkper rateHz => { format := .a0, a := rateHz, b := 0 }
  | .config dutyNs periodNs => { format := .ab, a := dutyNs, b := periodNs }
  | .capture timeout => { format := .a0, a := timeout, b := 0 }
  | .attach => { format := .zz, a := 0, b := 0 }
  | .detach => { format := .zz, a := 0, b := 0 }

/-- A command is well formed if its operand fields meet its format. -/
def Instr.wf (i : Instr) : Bool :=
  i.rawOperands.wf

end Sys2Proof
end

