-- ==== Sys2Proof/Decode.lean ====
section
/-! DEFINITION. Decode.lean: command words to commands, total and rejecting by name (30_encoding.md R50 to R55, R62),
and the encoder. The command port carries whole 72-bit words: no rule gives a command word bytes or a byte order
(log 16). -/

namespace Sys2Proof

/-- Why a word is `ILLEGAL` (30_encoding.md R55). -/
inductive DecodeError where
  /-- `op` is 0x00 or in 0x06 .. 0xFF. -/
  | reservedOpcode (op : BitVec 8)
  /-- A nonzero `A` in a format that requires zero. -/
  | nonzeroA (op : BitVec 8)
  /-- A nonzero `B` in a format that requires zero. -/
  | nonzeroB (op : BitVec 8)
  deriving DecidableEq, Repr

/-- The opcode field, `CW[71:64]` (30_encoding.md R50). -/
def opField (cw : CommandWord) : BitVec 8 := cw.extractLsb' 64 8

/-- The first operand field, `CW[63:32]` (30_encoding.md R50). -/
def aField (cw : CommandWord) : Word := cw.extractLsb' 32 32

/-- The second operand field, `CW[31:0]` (30_encoding.md R50). -/
def bField (cw : CommandWord) : Word := cw.extractLsb' 0 32

/-- A command of format `A0`: `B` must be zero. -/
def decodeA0 (op : BitVec 8) (a b : Word) (mk : Word → Instr) : Except DecodeError Instr :=
  if b = 0 then .ok (mk a) else .error (.nonzeroB op)

/-- A command of format `00`: `A` and `B` must be zero. -/
def decodeZZ (op : BitVec 8) (a b : Word) (i : Instr) : Except DecodeError Instr :=
  if a = 0 then (if b = 0 then .ok i else .error (.nonzeroB op)) else .error (.nonzeroA op)

/-- The command of the three fields, by the opcode map (30_encoding.md R52, R62). -/
def decodeFields (op : BitVec 8) (a b : Word) : Except DecodeError Instr :=
  if op = 0x01 then decodeA0 op a b .clkper
  else if op = 0x02 then .ok (.config a b)
  else if op = 0x03 then decodeA0 op a b .capture
  else if op = 0x04 then decodeZZ op a b .attach
  else if op = 0x05 then decodeZZ op a b .detach
  else .error (.reservedOpcode op)

/-- The decoder: every 72-bit word is one of the five commands or `ILLEGAL` (30_encoding.md R62). -/
def decode (cw : CommandWord) : Except DecodeError Instr :=
  decodeFields (opField cw) (aField cw) (bField cw)

/-- The opcode of a command (30_encoding.md R52). -/
def Instr.opcode : Instr → BitVec 8
  | .clkper _ => 0x01
  | .config _ _ => 0x02
  | .capture _ => 0x03
  | .attach => 0x04
  | .detach => 0x05

/-- The encoder: `op ‖ A ‖ B` with zeros in unused fields (30_encoding.md R62). -/
def encode (i : Instr) : CommandWord :=
  i.opcode ++ i.rawOperands.a ++ i.rawOperands.b

/-- The 72-bit command word of an opcode-table row's low `nbits` bits `w`, every bit above them zero. The command is
one word, numbered as the table numbers it: bit 0 is `CW[0]`. -/
def tableWord (nbits w : Nat) : CommandWord :=
  BitVec.ofNat 72 (w % 2 ^ nbits)

/-- What the decoder reads from an opcode-table row's word; none where the word is `ILLEGAL` or does not fit the
72 bits of a command word. -/
def decodeTableWord (nbits w : Nat) : Option Instr :=
  if w % 2 ^ nbits < 2 ^ 72 then (decode (tableWord nbits w)).toOption else none

end Sys2Proof
end

