-- ==== Sys2Proof/Machine/Port.lean ====
section
/-! DEFINITION. Machine/Port.lean: the command port: how a step takes its input, and the answer to an illegal word. -/

namespace Sys2Proof.Machine

/-- The oldest input not yet taken, and the state that has taken it. Taking a command supplies afresh the platform's
answers and the offered latches of its step (44_lifecycle.md R111, 70_reset_and_hazards.md R166; log 2, 3). -/
def State.takeInput (s : State) : Option (HostInput × State) :=
  match s.pending with
  | [] => none
  | .latch l :: rest => some (.latch l, { s with pending := rest })
  | .command cw plat mid :: rest =>
    some (.command cw plat mid, { s with pending := rest, plat := plat, midLatches := mid })

/-- An `ILLEGAL` word, in every lifecycle state: no state changes except `CIDX`, and the response is
`Err(IllegalCommand)` (30_encoding.md R55). -/
def State.illegalWord (s : State) : State :=
  s.raise .illegalCommand

/-- Put a command word before every other input, with the answers and latches the state already holds. -/
def State.issue (cw : CommandWord) (s : State) : State :=
  { s with pending := .command cw s.plat s.midLatches :: s.pending }

end Sys2Proof.Machine
end

