-- ==== Sys2Proof/Machine/Step.lean ====
section
/-! DEFINITION. Machine/Step.lean: one step takes one input: a command, which is one step of the converter
(00_scope.md R3), or a latch of the PWM core, which is one step of the environment (40_register_interface.md R76).
With no input the converter waits (70_reset_and_hazards.md R151; log 2). -/

namespace Sys2Proof.Machine

/-- One step. Decoding comes first, then the lifecycle precondition and the command's own tests
(60_exceptions.md R138). -/
def step (s : State) : Host.Outcome State Fault Refusal :=
  match s.takeInput with
  | none => .next s
  | some (.latch l, t) => .next (t.latchBetweenCommands l)
  | some (.command cw _ _, t) =>
    match decode cw with
    | .error _ => .next t.illegalWord
    | .ok i => exec i t

/-- The state in which the next step runs the command word `w` (log 2). -/
def State.withFetchWord (s : State) (nbits w : Nat) : State :=
  s.issue (tableWord nbits w)

end Sys2Proof.Machine
end

