-- ==== Sys2Proof/Safety.lean ====
section
/-! DEFINITION. Safety.lean: what holds of every state a run can reach, in the terms the statements use. -/

namespace Sys2Proof.Machine

/-- `CLK_NS`, `BASE` and `REGION_LEN` hold values exactly while `Attached`, and the register layout then passed its
validation (10_state.md R13, R15, R16). -/
def State.LifecycleConsistent (s : State) : Prop :=
  (s.lstate = .attached →
    ∃ c b len, s.clkNs = some c ∧ s.base = some b ∧ s.regionLen = some len ∧ LayoutOK s.params.layout len) ∧
  (s.lstate ≠ .attached → s.clkNs = none ∧ s.base = none ∧ s.regionLen = none)

/-- A clock period lies in 0 .. 1_000_000_000 (10_state.md R13). -/
def State.ClockPeriodInRange (s : State) : Prop :=
  ∀ c, s.clkNs = some c → c.toNat ≤ 1_000_000_000

/-- `CIDX` counts the commands that have responded (10_state.md R19). -/
def State.CountsResponses (s : State) : Prop :=
  s.cidx = s.responses.length

/-- The invariant of the machine: every step keeps it and every reset has it. -/
def State.Inv (s : State) : Prop :=
  s.LifecycleConsistent ∧ s.ClockPeriodInRange ∧ s.CountsResponses

/-- How many of each resource the converter holds: one while `Attached`, none otherwise (10_state.md R16, R21). -/
def State.held (s : State) : Nat :=
  match s.lstate with
  | .unattached => 0
  | .attached => 1
  | .detached => 0

/-- How many times the converter has been detached. -/
def State.detachCount (s : State) : Nat :=
  match s.lstate with
  | .unattached => 0
  | .attached => 0
  | .detached => 1

/-- The trace accounts for every resource: the mapping, the clock handle and the registration have been taken once
more often than given back while `Attached` and equally often otherwise, and the clock is disabled and the channel
unregistered once, by the one `DETACH` (10_state.md R16, R20; 44_lifecycle.md R116, R121). -/
def State.ResourcesBalanced (s : State) : Prop :=
  s.trace.count .mapRegion = s.trace.count .unmapRegion + s.held ∧
  s.trace.count .clkAcquire = s.trace.count .clkRelease + s.held ∧
  s.trace.count .chanRegister = s.trace.count .chanUnregister + s.held ∧
  s.trace.count .clkDisable = s.detachCount ∧
  s.trace.count .chanUnregister = s.detachCount

/-- The state with other records: what no command reads (10_state.md R19, R20; log 6). -/
def State.withRecords (trace : List Event) (cidx : Nat) (responses : List Response) (s : State) : State :=
  { s with trace := trace, cidx := cidx, responses := responses }

/-- The events of latches, in order. -/
def latchEvents (ls : List Latch) : List Event :=
  ls.map fun l => .latch l.up l.down

/-- What latches leave in `UP`: the last one's count, or what was there (40_register_interface.md R76). -/
def upAfter (ls : List Latch) (up : Word) : Word :=
  match ls.getLast? with
  | none => up
  | some l => l.up

/-- What latches leave in `DOWN`: the last one's count, or what was there (40_register_interface.md R76). -/
def downAfter (ls : List Latch) (down : Word) : Word :=
  match ls.getLast? with
  | none => down
  | some l => l.down

end Sys2Proof.Machine
end

