-- ==== Sys2Proof/Certificates/Slice0/Obligations.lean ====
section
/-! DEFINITION. Obligations.lean: the statements for the provers. Results are written as whole next states (a record
update of the state before), so that each says its frame too: every field not named is unchanged. -/

open Sys2Proof Sys2Proof.Machine

/-! ### Encoding -/

/-- Decode after encode is the identity on commands. (30_encoding.md section 3; the encoding is the spec's own decision
D5, D6, log 16.) -/
def Obligations.DecodeAfterEncode : Prop :=
  ∀ i : Instr, i.wf = true → decode (encode i) = .ok i

/-- Encode after decode is the identity on every word that is not `ILLEGAL`. (30_encoding.md section 3; D5, D6.) -/
def Obligations.EncodeAfterDecode : Prop :=
  ∀ (cw : CommandWord) (i : Instr), decode cw = .ok i → encode i = cw

/-- A word is the command of an opcode-map row exactly when `w AND mask = match`, with the operands of its fields.
(30_encoding.md section 3, table of the opcode map; the numbers are the spec's decision D5.) -/
def Obligations.OpcodeMapRows : Prop :=
  ∀ (cw : CommandWord) (a b : Word),
    (decode cw = .ok (.clkper a) ↔
      cw &&& 0xFF00000000FFFFFFFF = 0x010000000000000000 ∧ cw.toNat / 2 ^ 32 % 2 ^ 32 = a.toNat) ∧
    (decode cw = .ok (.config a b) ↔
      cw &&& 0xFF0000000000000000 = 0x020000000000000000 ∧ cw.toNat / 2 ^ 32 % 2 ^ 32 = a.toNat ∧
        cw.toNat % 2 ^ 32 = b.toNat) ∧
    (decode cw = .ok (.capture a) ↔
      cw &&& 0xFF00000000FFFFFFFF = 0x030000000000000000 ∧ cw.toNat / 2 ^ 32 % 2 ^ 32 = a.toNat) ∧
    (decode cw = .ok .attach ↔ cw &&& 0xFFFFFFFFFFFFFFFFFF = 0x040000000000000000) ∧
    (decode cw = .ok .detach ↔ cw &&& 0xFFFFFFFFFFFFFFFFFF = 0x050000000000000000)

/-- The illegal words are exactly: a reserved opcode, a nonzero `B` under `CLKPER` or `CAPTURE`, a nonzero `A` or `B`
under `ATTACH` or `DETACH`. (30_encoding.md section 4; the spec's decision D6.) -/
def Obligations.IllegalWordsExactly : Prop :=
  ∀ cw : CommandWord,
    (∃ e, decode cw = .error e) ↔
      (cw.toNat / 2 ^ 64 = 0 ∨ 6 ≤ cw.toNat / 2 ^ 64) ∨
      ((cw.toNat / 2 ^ 64 = 1 ∨ cw.toNat / 2 ^ 64 = 3) ∧ cw.toNat % 2 ^ 32 ≠ 0) ∨
      ((cw.toNat / 2 ^ 64 = 4 ∨ cw.toNat / 2 ^ 64 = 5) ∧ cw.toNat % 2 ^ 64 ≠ 0)

/-- Five command words written out from the opcode map decode to their commands, and one word of a reserved opcode is
refused by name. (30_encoding.md sections 1, 3, 4; the words, opcodes and zero fields are the spec's own decisions D5,
D6, log 16.) -/
def Obligations.SampleWordsDecode : Prop :=
  decode 0x0105F5E10000000000 = .ok (.clkper 100_000_000) ∧
  decode 0x02000000050000000A = .ok (.config 5 10) ∧
  decode 0x03FFFFFFFF00000000 = .ok (.capture 4_294_967_295) ∧
  decode 0x040000000000000000 = .ok .attach ∧
  decode 0x050000000000000000 = .ok .detach ∧
  decode 0x060000000000000000 = .error (.reservedOpcode 0x06)

/-- The response word as a number: status, `V0` and `V1`, with zero payload on every error; the status codes of the six
error kinds are 1 to 6 in the order of the table, and the status is 0 exactly for `Ok` and never above 6.
(30_encoding.md section 5, 60_exceptions.md section 1; the layout and the codes are the spec's decisions D6, D7,
log 16.) -/
def Obligations.ResponseWordLayout : Prop :=
  ∀ (r : Response) (q d p : Word),
    (Response.ok .unit).word.toNat = 0 ∧
    (Response.ok (.clockPeriod q)).word.toNat = q.toNat * 2 ^ 32 ∧
    (Response.ok (.measurement d p)).word.toNat = d.toNat * 2 ^ 32 + p.toNat ∧
    (Response.err .invalidDutyCycle).word.toNat = 1 * 2 ^ 64 ∧
    (Response.err .captureUnavailable).word.toNat = 2 * 2 ^ 64 ∧
    (Response.err .clockUnavailable).word.toNat = 3 * 2 ^ 64 ∧
    (Response.err .resourceUnavailable).word.toNat = 4 * 2 ^ 64 ∧
    (Response.err .detachError).word.toNat = 5 * 2 ^ 64 ∧
    (Response.err .illegalCommand).word.toNat = 6 * 2 ^ 64 ∧
    (r.word.toNat / 2 ^ 64 = 0 ↔ ∃ pl, r = .ok pl) ∧
    r.word.toNat / 2 ^ 64 ≤ 6

/-! ### Steps -/

/-- When the next input is a command whose word decodes to `i`, a step is `exec i` on the state that has taken the
input. -/
def Obligations.StepRunsDecoded : Prop :=
  ∀ (s : State) (cw : CommandWord) (plat : Plat) (mid : List Latch) (rest : List HostInput) (i : Instr),
    s.pending = .command cw plat mid :: rest → decode cw = .ok i → i.wf = true →
    step s = exec i { s with pending := rest, plat := plat, midLatches := mid }

/-- Placing the encoding of a command with `withFetchWord` makes the very next step run exactly that command. -/
def Obligations.FetchWordRuns : Prop :=
  ∀ (s : State) (i : Instr), step (s.withFetchWord 72 (encode i).toNat) = exec i s

/-- An illegal word, in every lifecycle state: only `CIDX` moves, and the response is `Err(IllegalCommand)`.
(30_encoding.md section 4; the spec's decision D6.) -/
def Obligations.IllegalWordStep : Prop :=
  ∀ (s : State) (cw : CommandWord) (plat : Plat) (mid : List Latch) (rest : List HostInput) (e : DecodeError),
    s.pending = .command cw plat mid :: rest → decode cw = .error e →
    step s = .next { s with
      pending := rest, plat := plat, midLatches := mid, cidx := s.cidx + 1,
      responses := s.responses ++ [.err .illegalCommand] }

/-- With no input pending the converter waits: the state does not change. (70_reset_and_hazards.md section 1; the idle
step is the model's choice, log 2.) -/
def Obligations.IdleStepWaits : Prop :=
  ∀ s : State, s.pending = [] → step s = .next s

/-- A latch between two commands writes both registers and is recorded, unless `LATCH` is `none`; it takes no command
index and gives no response. (40_register_interface.md section 5; the spec's decision D15, log 5.) -/
def Obligations.LatchBetweenCommandsStep : Prop :=
  ∀ (s : State) (l : Latch) (rest : List HostInput),
    s.pending = .latch l :: rest →
    (s.params.latch ≠ .none →
      step s = .next { s with
        pending := rest, up := l.up, down := l.down, trace := s.trace ++ [.latch l.up l.down] }) ∧
    (s.params.latch = .none → step s = .next { s with pending := rest })

/-! ### Arithmetic -/

/-- `udiv(a, b)` for `b ≠ 0` is the unique `q` with `q * b ≤ a < (q + 1) * b`, and never exceeds `a`. -/
def Obligations.UdivIsFloorDivision : Prop :=
  ∀ (a b : Word) (h : b ≠ 0),
    (udiv a b h).toNat * b.toNat ≤ a.toNat ∧ a.toNat < ((udiv a b h).toNat + 1) * b.toNat ∧
    (udiv a b h).toNat ≤ a.toNat ∧
    ∀ q : Nat, q * b.toNat ≤ a.toNat → a.toNat < (q + 1) * b.toNat → q = (udiv a b h).toNat

/-- `clock_period_ns(r)` for `r ≠ 0` is `1_000_000_000 / r`. -/
def Obligations.ClockPeriodFormula : Prop :=
  ∀ r : Word, r ≠ 0 → clockPeriodNs r = .ok (.ofNat 32 (1_000_000_000 / r.toNat))

/-- The clock period lies in 1 .. 1_000_000_000 for rates up to 1 GHz and is 0 above. (41_clock_model.md section 1,
derived by the spec; 90_conflicts.md C1.) -/
def Obligations.ClockPeriodRange : Prop :=
  ∀ (r q : Word), clockPeriodNs r = .ok q →
    (r.toNat ≤ 1_000_000_000 → 1 ≤ q.toNat ∧ q.toNat ≤ 1_000_000_000) ∧
    (1_000_000_000 < r.toNat → q = 0)

/-! ### CLKPER -/

/-- `CLKPER` completes in every state: `Ok(1_000_000_000 / rate_hz)`, or `Err(ClockUnavailable)` for rate 0, and
nothing but `CIDX` moves. (41_clock_model.md section 2; its being a command in every state is the spec's decision
D21.) -/
def Obligations.ClkperCompletes : Prop :=
  ∀ (s : State) (r : Word),
    (r ≠ 0 → exec (.clkper r) s = .next { s with
      cidx := s.cidx + 1,
      responses := s.responses ++ [.ok (.clockPeriod (.ofNat 32 (1_000_000_000 / r.toNat)))] }) ∧
    (r = 0 → exec (.clkper r) s = .next { s with
      cidx := s.cidx + 1, responses := s.responses ++ [.err .clockUnavailable] })

/-! ### CONFIG -/

/-- `CONFIG` in the core domain with no latch between its writes: `UP <- clk / duty`, `DOWN <- clk / (clk - duty)`,
`Ok`. (The order of the two events is the spec's decision D9, log 11.) -/
def Obligations.ConfigCoreResult : Prop :=
  ∀ (s : State) (c d p : Word) (b : Nat),
    s.lstate = .attached → s.clkNs = some c → s.base = some b →
    s.params.layout.offUp ≠ s.params.layout.offDown → s.admittedMid = [] →
    0 < d.toNat → d.toNat < c.toNat →
    exec (.config d p) s = .next { s with
      up := .ofNat 32 (c.toNat / d.toNat),
      down := .ofNat 32 (c.toNat / (c.toNat - d.toNat)),
      trace := s.trace ++
        [.regWrite s.params.layout.offUp (.ofNat 32 (c.toNat / d.toNat)),
         .regWrite s.params.layout.offDown (.ofNat 32 (c.toNat / (c.toNat - d.toNat)))],
      cidx := s.cidx + 1, responses := s.responses ++ [.ok .unit] }

/-- `CONFIG` with any admitted latches between its writes, for every duty that passes its tests: the last latch's count
stands in `UP`, `down_count` in `DOWN`. (42_config.md sections 1, 2; access order and wrapping subtraction are the
spec's decisions D9, D3, the latches D15; log 5, 8, 11.) -/
def Obligations.ConfigResultWithLatches : Prop :=
  ∀ (s : State) (c d p : Word) (b : Nat),
    s.lstate = .attached → s.clkNs = some c → s.base = some b →
    s.params.layout.offUp ≠ s.params.layout.offDown → d ≠ 0 → d ≠ c →
    exec (.config d p) s = .next { s with
      up := upAfter s.admittedMid (.ofNat 32 (c.toNat / d.toNat)),
      down := .ofNat 32 (c.toNat / ((c.toNat + 2 ^ 32 - d.toNat) % 2 ^ 32)),
      trace := s.trace ++ [.regWrite s.params.layout.offUp (.ofNat 32 (c.toNat / d.toNat))] ++
        latchEvents s.admittedMid ++
        [.regWrite s.params.layout.offDown (.ofNat 32 (c.toNat / ((c.toNat + 2 ^ 32 - d.toNat) % 2 ^ 32)))],
      cidx := s.cidx + 1, responses := s.responses ++ [.ok .unit] }

/-- `CONFIG` fails with `InvalidDutyCycle` in exactly two cases (42_config.md R92), and with no other error: every other
duty succeeds. (That a duty above the clock period succeeds is the spec's own decision D3, log 8.) -/
def Obligations.ConfigFailsExactly : Prop :=
  ∀ (s : State) (c d p : Word) (b : Nat),
    s.lstate = .attached → s.clkNs = some c → s.base = some b →
    s.params.layout.offUp ≠ s.params.layout.offDown →
    ((∃ t, exec (.config d p) s = .next t ∧ t.responses = s.responses ++ [.err .invalidDutyCycle]) ↔
      (d = 0 ∨ d = c)) ∧
    (¬ (d = 0 ∨ d = c) →
      ∃ t, exec (.config d p) s = .next t ∧ t.responses = s.responses ++ [.ok .unit])

/-- A failing `CONFIG` writes no register and emits no event. (42_config.md section 2; the spec's decision D10,
log 11.) -/
def Obligations.ConfigFailureWritesNothing : Prop :=
  ∀ (s : State) (c d p : Word),
    s.lstate = .attached → s.clkNs = some c → (d = 0 ∨ d = c) →
    exec (.config d p) s = .next { s with
      cidx := s.cidx + 1, responses := s.responses ++ [.err .invalidDutyCycle] }

/-- `period_ns` takes no part in anything: every value gives the same behaviour. -/
def Obligations.ConfigIgnoresPeriod : Prop :=
  ∀ (s : State) (d p p' : Word), exec (.config d p) s = exec (.config d p') s

/-- The counts a core-domain `CONFIG` leaves, with no latch between its writes: each lies in 1 .. `CLK_NS`, `UP` is 1
exactly when `2 * duty > clk`, `DOWN` is 1 exactly when `2 * duty < clk`, and both are 2 when `2 * duty = clk`.
(42_config.md section 3, derived by the spec.) -/
def Obligations.ConfigCoreCounts : Prop :=
  ∀ (s t : State) (c d p : Word),
    s.clkNs = some c → s.params.layout.offUp ≠ s.params.layout.offDown → s.admittedMid = [] →
    0 < d.toNat → d.toNat < c.toNat → exec (.config d p) s = .next t →
    (1 ≤ t.up.toNat ∧ t.up.toNat ≤ c.toNat) ∧ (1 ≤ t.down.toNat ∧ t.down.toNat ≤ c.toNat) ∧
    (t.up = 1 ↔ c.toNat < 2 * d.toNat) ∧ (t.down = 1 ↔ 2 * d.toNat < c.toNat) ∧
    (2 * d.toNat = c.toNat → t.up = 2 ∧ t.down = 2)

/-- `CONFIG` with a duty above the clock period and no latch between its writes writes 0 to both registers and
succeeds. (42_config.md section 3, the spec's decision D3, log 8; the order of the two events, 42_config.md section 2,
is its decision D9, log 11.) -/
def Obligations.ConfigExtendedDomain : Prop :=
  ∀ (s : State) (c d p : Word) (b : Nat),
    s.lstate = .attached → s.clkNs = some c → s.base = some b →
    s.params.layout.offUp ≠ s.params.layout.offDown → s.admittedMid = [] → c.toNat < d.toNat →
    exec (.config d p) s = .next { s with
      up := 0, down := 0,
      trace := s.trace ++ [.regWrite s.params.layout.offUp 0, .regWrite s.params.layout.offDown 0],
      cidx := s.cidx + 1, responses := s.responses ++ [.ok .unit] }

/-! ### CAPTURE -/

/-- `CAPTURE` of counts whose sum does not wrap, with no latch between its reads: `Ok(clk / up, clk / (up + down))`.
(The order of the two events is the spec's decision D9, log 11.) -/
def Obligations.CaptureCoreResult : Prop :=
  ∀ (s : State) (c timeout : Word) (b : Nat),
    s.lstate = .attached → s.clkNs = some c → s.base = some b →
    s.params.layout.offUp ≠ s.params.layout.offDown → s.admittedMid = [] →
    s.up ≠ 0 → s.up.toNat + s.down.toNat < 2 ^ 32 →
    exec (.capture timeout) s = .next { s with
      trace := s.trace ++
        [.regRead s.params.layout.offUp s.up, .regRead s.params.layout.offDown s.down],
      cidx := s.cidx + 1,
      responses := s.responses ++
        [.ok (.measurement (.ofNat 32 (c.toNat / s.up.toNat))
          (.ofNat 32 (c.toNat / (s.up.toNat + s.down.toNat))))] }

/-- `CAPTURE` fails with `CaptureUnavailable` in exactly two cases, here for counts whose sum does not wrap, and then
changes no register. -/
def Obligations.CaptureFailsExactly : Prop :=
  ∀ (s : State) (c timeout : Word) (b : Nat),
    s.lstate = .attached → s.clkNs = some c → s.base = some b →
    s.params.layout.offUp ≠ s.params.layout.offDown → s.admittedMid = [] →
    s.up.toNat + s.down.toNat < 2 ^ 32 →
    ((∃ t, exec (.capture timeout) s = .next t ∧ t.responses = s.responses ++ [.err .captureUnavailable] ∧
        t.up = s.up ∧ t.down = s.down) ↔
      (s.up.toNat = 0 ∨ s.up.toNat + s.down.toNat = 0)) ∧
    (¬ (s.up.toNat = 0 ∨ s.up.toNat + s.down.toNat = 0) →
      ∃ t d p, exec (.capture timeout) s = .next t ∧ t.responses = s.responses ++ [.ok (.measurement d p)])

/-- `CAPTURE` with any admitted latches between its reads: `u` is `UP` before them, `d` is `DOWN` after them, the sum is
the wrapping 32-bit sum, and the response is `CaptureUnavailable` if `u` or the sum is zero. (43_capture.md sections 1,
2; access order D9, wrapping sum D4, latches D15; log 5, 9, 11.) -/
def Obligations.CaptureResultWithLatches : Prop :=
  ∀ (s : State) (c timeout : Word) (b : Nat),
    s.lstate = .attached → s.clkNs = some c → s.base = some b →
    s.params.layout.offUp ≠ s.params.layout.offDown →
    exec (.capture timeout) s = .next { s with
      up := upAfter s.admittedMid s.up, down := downAfter s.admittedMid s.down,
      trace := s.trace ++ [.regRead s.params.layout.offUp s.up] ++ latchEvents s.admittedMid ++
        [.regRead s.params.layout.offDown (downAfter s.admittedMid s.down)],
      cidx := s.cidx + 1,
      responses := s.responses ++
        [if s.up.toNat = 0 ∨ (s.up.toNat + (downAfter s.admittedMid s.down).toNat) % 2 ^ 32 = 0 then
           .err .captureUnavailable
         else
           .ok (.measurement (.ofNat 32 (c.toNat / s.up.toNat))
             (.ofNat 32 (c.toNat / ((s.up.toNat + (downAfter s.admittedMid s.down).toNat) % 2 ^ 32))))] }

/-- `timeout` takes no part in anything: every value gives the same behaviour. -/
def Obligations.CaptureIgnoresTimeout : Prop :=
  ∀ (s : State) (x y : Word), exec (.capture x) s = exec (.capture y) s

/-- The ranges of a successful `CAPTURE` in the core domain. (43_capture.md section 2, derived by the spec.) -/
def Obligations.CaptureRanges : Prop :=
  ∀ (s t : State) (c timeout d p : Word),
    s.clkNs = some c → s.params.layout.offUp ≠ s.params.layout.offDown → s.admittedMid = [] →
    s.up.toNat + s.down.toNat < 2 ^ 32 →
    exec (.capture timeout) s = .next t → t.responses = s.responses ++ [.ok (.measurement d p)] →
    p.toNat ≤ d.toNat ∧ d.toNat ≤ c.toNat ∧
    (1 ≤ c.toNat → (d = c ↔ s.up = 1)) ∧
    (d = 0 ↔ c.toNat < s.up.toNat) ∧ (p = 0 ↔ c.toNat < s.up.toNat + s.down.toNat) ∧
    (c = 0 → d = 0 ∧ p = 0)

/-- `CAPTURE` after a core-domain `CONFIG` with no latch reads exactly what was written and returns a duty no smaller
than the configured one, for a clock period in its range. (43_capture.md section 3, derived by the spec; 20_memory.md
section 5. The order of the events is the spec's decision D9, log 11.) -/
def Obligations.CaptureAfterConfig : Prop :=
  ∀ (s t : State) (c d p timeout : Word),
    s.clkNs = some c → c.toNat ≤ 1_000_000_000 → s.params.layout.offUp ≠ s.params.layout.offDown → s.admittedMid = [] →
    0 < d.toNat → d.toNat < c.toNat → exec (.config d p) s = .next t →
    ∃ (v : State) (duty period : Word), exec (.capture timeout) t = .next v ∧
      v.responses = s.responses ++ [.ok .unit, .ok (.measurement duty period)] ∧
      v.trace = s.trace ++
        [.regWrite s.params.layout.offUp (c / d), .regWrite s.params.layout.offDown (c / (c - d)),
         .regRead s.params.layout.offUp (c / d), .regRead s.params.layout.offDown (c / (c - d))] ∧
      duty.toNat = c.toNat / (c.toNat / d.toNat) ∧
      period.toNat = c.toNat / (c.toNat / d.toNat + c.toNat / (c.toNat - d.toNat)) ∧
      d.toNat ≤ duty.toNat

/-! ### ATTACH -/

/-- `ATTACH` completes from `Unattached` when every collaborator answers: it maps, acquires the clock, asks its rate,
stores the period and the mapping, registers the channel, and makes no register access. (44_lifecycle.md section 2; the
layout check is the spec's decision D8, log 10.) -/
def Obligations.AttachCompletes : Prop :=
  ∀ (s : State) (b n : Nat) (r : Word),
    s.lstate = .unattached → s.plat.region = some (b, n) → s.plat.mapOk = true →
    s.params.layout.offUp % 4 = 0 → s.params.layout.offDown % 4 = 0 →
    s.params.layout.offUp + 4 ≤ n → s.params.layout.offDown + 4 ≤ n →
    s.params.layout.offUp ≠ s.params.layout.offDown →
    s.plat.clock = true → s.plat.rate = some r → r ≠ 0 →
    exec .attach s = .next { s with
      clkNs := some (.ofNat 32 (1_000_000_000 / r.toNat)), base := some b, regionLen := some n, lstate := .attached,
      trace := s.trace ++ [.mapRegion, .clkAcquire, .clkGetRate (some r), .chanRegister],
      cidx := s.cidx + 1, responses := s.responses ++ [.ok .unit] }

/-- Step 1 of `ATTACH` fails with `ResourceUnavailable`, with no event and nothing to release, if no memory region is
described or mapping fails, whatever the other answers are. -/
def Obligations.AttachNeedsRegion : Prop :=
  ∀ s : State, s.lstate = .unattached → (s.plat.region = none ∨ s.plat.mapOk = false) →
    exec .attach s = .next { s with
      cidx := s.cidx + 1, responses := s.responses ++ [.err .resourceUnavailable] }

/-- A layout that fails validation makes `ATTACH` fail in step 1; with the default offsets a mapped region is accepted
exactly from length 8 on. (44_lifecycle.md section 2; the spec's decision D8, log 10.) -/
def Obligations.AttachChecksLayout : Prop :=
  ∀ (s : State) (b n : Nat),
    s.lstate = .unattached → s.plat.region = some (b, n) → s.plat.mapOk = true →
    ((s.params.layout.offUp % 4 ≠ 0 ∨ s.params.layout.offDown % 4 ≠ 0 ∨ n < s.params.layout.offUp + 4 ∨
        n < s.params.layout.offDown + 4 ∨ s.params.layout.offUp = s.params.layout.offDown) →
      exec .attach s = .next { s with
        cidx := s.cidx + 1, responses := s.responses ++ [.err .resourceUnavailable] }) ∧
    (s.params.layout = Config.defaultLayout →
      ((∃ t, exec .attach s = .next t ∧ t.responses = s.responses ++ [.err .resourceUnavailable]) ↔ n < 8))

/-- A failure after mapping releases what was acquired, in reverse order: the mapping if the clock is absent; the clock
and then the mapping if the rate is missing or zero. After any failed `ATTACH` the events of that command balance, and
the clock is never disabled. -/
def Obligations.AttachRollsBack : Prop :=
  (∀ (s : State) (b n : Nat),
    s.lstate = .unattached → s.plat.region = some (b, n) → s.plat.mapOk = true → LayoutOK s.params.layout n →
    (s.plat.clock = false →
      exec .attach s = .next { s with
        trace := s.trace ++ [.mapRegion, .unmapRegion],
        cidx := s.cidx + 1, responses := s.responses ++ [.err .clockUnavailable] }) ∧
    (s.plat.clock = true → (s.plat.rate = none ∨ s.plat.rate = some 0) →
      exec .attach s = .next { s with
        trace := s.trace ++ [.mapRegion, .clkAcquire, .clkGetRate s.plat.rate, .clkRelease, .unmapRegion],
        cidx := s.cidx + 1, responses := s.responses ++ [.err .clockUnavailable] })) ∧
  (∀ (s t : State) (k : ErrorKind), exec .attach s = .next t → t.responses = s.responses ++ [.err k] →
    ∃ evs : List Event, t.trace = s.trace ++ evs ∧ evs.count .mapRegion = evs.count .unmapRegion ∧
      evs.count .clkAcquire = evs.count .clkRelease ∧ .clkDisable ∉ evs)

/-- `ATTACH` either succeeds or leaves the converter as it was, but for `CIDX`, the trace and the response; it never
touches `UP` or `DOWN`. (44_lifecycle.md section 2; staying `Unattached` is the spec's decision D12, log 13.) -/
def Obligations.AttachAllOrNothing : Prop :=
  ∀ s t : State, exec .attach s = .next t →
    s.lstate = .unattached ∧ t.up = s.up ∧ t.down = s.down ∧
    ((t.responses = s.responses ++ [.ok .unit] ∧ t.lstate = .attached ∧ t.base.isSome = true ∧
        t.regionLen.isSome = true ∧ t.clkNs.isSome = true) ∨
     ((t.responses = s.responses ++ [.err .resourceUnavailable] ∨
        t.responses = s.responses ++ [.err .clockUnavailable]) ∧
        t.lstate = .unattached ∧ t.clkNs = s.clkNs ∧ t.base = s.base ∧ t.regionLen = s.regionLen))

/-- `ATTACH` succeeds with a clock rate above 1 GHz and stores a clock period of 0; and whatever else the platform
answers, an `ATTACH` that attached at such a rate stored 0. (44_lifecycle.md section 2, 90_conflicts.md C1, the spec's
decision D27, log 13; the layout check is its decision D8, log 10.) -/
def Obligations.AttachAcceptsZeroPeriod : Prop :=
  ∀ (s : State) (r : Word), s.plat.rate = some r → 1_000_000_000 < r.toNat →
    (∀ b n : Nat,
      s.lstate = .unattached → s.plat.region = some (b, n) → s.plat.mapOk = true → LayoutOK s.params.layout n →
      s.plat.clock = true →
      exec .attach s = .next { s with
        clkNs := some 0, base := some b, regionLen := some n, lstate := .attached,
        trace := s.trace ++ [.mapRegion, .clkAcquire, .clkGetRate (some r), .chanRegister],
        cidx := s.cidx + 1, responses := s.responses ++ [.ok .unit] }) ∧
    (∀ t, exec .attach s = .next t → t.lstate = .attached → t.clkNs = some 0)

/-! ### DETACH -/

/-- `DETACH` completes from `Attached`, whether or not a collaborator reports a failure: the four calls, then
`Detached` with nothing held; `UP` and `DOWN` stay. (44_lifecycle.md section 3; the spec's decisions D13, D31,
log 13.) -/
def Obligations.DetachCompletes : Prop :=
  ∀ s : State, s.lstate = .attached →
    exec .detach s = .next { s with
      clkNs := none, base := none, regionLen := none, lstate := .detached,
      trace := s.trace ++ [.clkDisable, .clkRelease, .unmapRegion, .chanUnregister],
      cidx := s.cidx + 1,
      responses := s.responses ++ [if s.plat.detachFault then .err .detachError else .ok .unit] }

/-- Every `DETACH` that has a step disables the clock, releases it, releases the mapping and unregisters the channel,
in this order, with nothing between them and no register access. -/
def Obligations.DetachOrder : Prop :=
  ∀ s t : State, exec .detach s = .next t →
    t.trace = s.trace ++ [.clkDisable, .clkRelease, .unmapRegion, .chanUnregister]

/-- A second `DETACH` is refused: no step, no response. -/
def Obligations.DoubleDetachRefused : Prop :=
  ∀ s t : State, exec .detach s = .next t → exec .detach t = .refused .doubleDetach

/-! ### The lifecycle -/

/-- Which commands have a step in which state; every other command is refused. (44_lifecycle.md section 4, derived by
the spec; refusing is the spec's decision D11, log 12.) -/
def Obligations.CommandTable : Prop :=
  ∀ s : State, s.Inv →
    (∀ r, ∃ t, exec (.clkper r) s = .next t) ∧
    (∀ d p, (∃ t, exec (.config d p) s = .next t) ↔ s.lstate = .attached) ∧
    (∀ x, (∃ t, exec (.capture x) s = .next t) ↔ s.lstate = .attached) ∧
    ((∃ t, exec .attach s = .next t) ↔ s.lstate = .unattached) ∧
    ((∃ t, exec .detach s = .next t) ↔ s.lstate = .attached) ∧
    (∀ i, (¬ ∃ t, exec i s = .next t) → ∃ r, exec i s = .refused r)

/-- `CONFIG`, `CAPTURE`, `ATTACH` and `DETACH` in a state that is not theirs are refused, each by its own name.
(44_lifecycle.md section 4; the spec's decision D11, log 12.) -/
def Obligations.WrongStateRefused : Prop :=
  ∀ (s : State) (d p x : Word),
    (s.lstate = .unattached → exec (.config d p) s = .refused .configUnattached ∧
      exec (.capture x) s = .refused .captureUnattached ∧ exec .detach s = .refused .detachUnattached) ∧
    (s.lstate = .attached → exec .attach s = .refused .attachAttached) ∧
    (s.lstate = .detached → exec (.config d p) s = .refused .configDetached ∧
      exec (.capture x) s = .refused .captureDetached ∧ exec .attach s = .refused .attachDetached ∧
      exec .detach s = .refused .doubleDetach)

/-- The only transitions of `LSTATE` are `Unattached` to `Attached` and `Attached` to `Detached`. (10_state.md section 4;
the spec's decision D12.) -/
def Obligations.LifecycleTransitions : Prop :=
  ∀ s t : State, step s = .next t →
    t.lstate = s.lstate ∨ (s.lstate = .unattached ∧ t.lstate = .attached) ∨
      (s.lstate = .attached ∧ t.lstate = .detached)

/-- `Detached` is terminal: no run leaves it. (10_state.md section 4.) -/
def Obligations.DetachedIsTerminal : Prop :=
  ∀ (k : Nat) (s t : State), s.lstate = .detached → Host.Core.run Sys2Proof.core k s = .next t → t.lstate = .detached

/-! ### What a command changes, and what it does not read -/

/-- Every command that has a step takes one command index, gives one response, and only adds to the trace; no step
changes the parameters. (10_state.md section 2; the spec's decision D16.) -/
def Obligations.CommandRespondsOnce : Prop :=
  ∀ (i : Instr) (s t : State), exec i s = .next t →
    t.cidx = s.cidx + 1 ∧ (∃ r, t.responses = s.responses ++ [r]) ∧ (∃ evs, t.trace = s.trace ++ evs) ∧
    t.params = s.params ∧ t.plat = s.plat ∧ t.midLatches = s.midLatches ∧ t.pending = s.pending

/-- Only `ATTACH` and `DETACH` change the control state and the clock period. (10_state.md sections 1, 4.) -/
def Obligations.ControlStateWriters : Prop :=
  ∀ (i : Instr) (s t : State), exec i s = .next t → i ≠ .attach → i ≠ .detach →
    t.lstate = s.lstate ∧ t.clkNs = s.clkNs ∧ t.base = s.base ∧ t.regionLen = s.regionLen

/-- With `LATCH = none` the registers change only by `CONFIG`: over a step that does not run a `CONFIG` word, `UP` and
`DOWN` keep their values. (40_register_interface.md section 5; the spec's decision D15.) -/
def Obligations.RegistersChangeOnlyByConfig : Prop :=
  ∀ s t : State, s.params.latch = .none → step s = .next t →
    (∀ (cw : CommandWord) (plat : Plat) (mid : List Latch) (rest : List HostInput) (d p : Word),
      s.pending = .command cw plat mid :: rest → decode cw ≠ .ok (.config d p)) →
    t.up = s.up ∧ t.down = s.down

/-- No command reads `CIDX`, `TRACE` or the responses given so far: from two states that differ only in these, a command
stops for the same reason, or does the same, adds the same events and gives the same response. (10_state.md sections 2,
7, decisions D16, D30; log 6.) -/
def Obligations.RecordsAreNotRead : Prop :=
  ∀ (i : Instr) (s : State) (tr : List Event) (n : Nat) (rs : List Response),
    (∀ t, exec i s = .next t → ∃ evs r,
      t.trace = s.trace ++ evs ∧ t.responses = s.responses ++ [r] ∧
      exec i (s.withRecords tr n rs) = .next (t.withRecords (tr ++ evs) (n + 1) (rs ++ [r]))) ∧
    (∀ f, exec i s = .fault f → exec i (s.withRecords tr n rs) = .fault f) ∧
    (∀ e, exec i s = .refused e → exec i (s.withRecords tr n rs) = .refused e)

/-- Which command raises which error kind. (60_exceptions.md section 1.) -/
def Obligations.ErrorKindsByCommand : Prop :=
  ∀ (i : Instr) (s t : State) (k : ErrorKind),
    exec i s = .next t → t.responses = s.responses ++ [.err k] →
    (k = .invalidDutyCycle ∧ ∃ d p, i = .config d p) ∨
    (k = .captureUnavailable ∧ ∃ x, i = .capture x) ∨
    (k = .clockUnavailable ∧ (i = .clkper 0 ∨ i = .attach)) ∨
    (k = .resourceUnavailable ∧ i = .attach) ∨
    (k = .detachError ∧ i = .detach)

/-! ### The register port -/

/-- `MemRead` is defined only for the two registers' addresses, and only while `Attached`: in another lifecycle state it
is refused at every address, whatever `BASE` holds. -/
def Obligations.MemReadDefinedExactly : Prop :=
  ∀ (s : State) (a : Nat),
    (∀ b, s.lstate = .attached → s.base = some b → s.params.layout.offUp ≠ s.params.layout.offDown →
      s.memRead (b + s.params.layout.offUp) = .ok s.up ∧ s.memRead (b + s.params.layout.offDown) = .ok s.down) ∧
    (∀ b, s.lstate = .attached → s.base = some b →
      a ≠ b + s.params.layout.offUp → a ≠ b + s.params.layout.offDown →
      s.memRead a = .error (.refused (.undefinedAddress a))) ∧
    (s.lstate ≠ .attached → s.memRead a = .error (.refused .portNotAttached))

/-- A write at one register's address, while `Attached`, replaces all 32 bits of that register: a read of the address
gives the value written, a read of every other address gives what it gave before, and the state is otherwise unchanged.
A write at any other address is not defined, nor is a write at any address in another lifecycle state, whatever `BASE`
holds. -/
def Obligations.MemWriteReplacesRegister : Prop :=
  ∀ (s : State) (a : Nat) (v : Word),
    (∀ b, s.lstate = .attached → s.base = some b → s.params.layout.offUp ≠ s.params.layout.offDown →
      (a = b + s.params.layout.offUp ∨ a = b + s.params.layout.offDown) →
      ∃ t, s.memWrite a v = .ok t ∧ t.memRead a = .ok v ∧ (∀ a', a' ≠ a → t.memRead a' = s.memRead a') ∧
        t = { s with up := t.up, down := t.down }) ∧
    (∀ b, s.lstate = .attached → s.base = some b →
      a ≠ b + s.params.layout.offUp → a ≠ b + s.params.layout.offDown →
      s.memWrite a v = .error (.refused (.undefinedAddress a))) ∧
    (s.lstate ≠ .attached → s.memWrite a v = .error (.refused .portNotAttached))

/-- The contract of the register port: while `Attached`, a read at `OFF_UP` or `OFF_DOWN` gives that register and records
one `RegRead`, a write there replaces that register and records one `RegWrite`, and an access at any other offset is
refused; in another lifecycle state every access is refused, whatever `BASE` holds. (40_register_interface.md sections
2, 3, 4; the events are the spec's decision D30.) -/
def Obligations.RegisterPortContract : Prop :=
  ∀ (s : State) (off : Nat) (v : Word),
    (∀ b, s.lstate = .attached → s.base = some b → s.params.layout.offUp ≠ s.params.layout.offDown →
      s.regRead32 s.params.layout.offUp =
        .ok (s.up, { s with trace := s.trace ++ [.regRead s.params.layout.offUp s.up] }) ∧
      s.regRead32 s.params.layout.offDown =
        .ok (s.down, { s with trace := s.trace ++ [.regRead s.params.layout.offDown s.down] }) ∧
      s.regWrite32 s.params.layout.offUp v =
        .ok { s with up := v, trace := s.trace ++ [.regWrite s.params.layout.offUp v] } ∧
      s.regWrite32 s.params.layout.offDown v =
        .ok { s with down := v, trace := s.trace ++ [.regWrite s.params.layout.offDown v] }) ∧
    (s.lstate = .attached → off ≠ s.params.layout.offUp → off ≠ s.params.layout.offDown →
      s.regRead32 off = .error (.refused (.undefinedOffset off)) ∧
      s.regWrite32 off v = .error (.refused (.undefinedOffset off))) ∧
    (s.lstate ≠ .attached →
      s.regRead32 off = .error (.refused .portNotAttached) ∧
      s.regWrite32 off v = .error (.refused .portNotAttached))

/-- A port read after a port write of the same register gives the value written, also when a port write of the other
register came between. (40_register_interface.md section 5, derived by the spec.) -/
def Obligations.PortReadAfterWrites : Prop :=
  ∀ (s t : State) (off : Nat) (v : Word), s.regWrite32 off v = .ok t →
    (∃ t', t.regRead32 off = .ok (v, t') ∧ t'.up = t.up ∧ t'.down = t.down) ∧
    (∀ (off' : Nat) (w : Word) (t' : State), off' ≠ off → t.regWrite32 off' w = .ok t' →
      ∃ t'', t'.regRead32 off = .ok (v, t''))

/-- No command of a machine in its invariant uses the port outside `Attached`, at an undefined offset or at an
undefined address. (40_register_interface.md section 4, derived by the spec.) -/
def Obligations.CommandsUsePortLegally : Prop :=
  ∀ (i : Instr) (s : State), s.Inv →
    exec i s ≠ .refused .portNotAttached ∧ (∀ off, exec i s ≠ .refused (.undefinedOffset off)) ∧
    (∀ a, exec i s ≠ .refused (.undefinedAddress a))

/-! ### Reset, invariants, safety -/

/-- What reset leaves, for every choice of the parameters and of the contents of the two registers: `Unattached`, no
clock period, no mapping, index 0, empty trace. (10_state.md section 8; the spec's decision D19. `State.reset` is one
of these states, log 1, 4.) -/
def Obligations.ResetLeaves : Prop :=
  ∀ (p : Config.Params) (u d : Word),
    let s := State.resetWith p u d
    s.lstate = .unattached ∧ s.clkNs = none ∧ s.base = none ∧ s.regionLen = none ∧ s.cidx = 0 ∧ s.trace = [] ∧
      s.up = u ∧ s.down = d ∧ ∃ p u d, State.reset = State.resetWith p u d

/-- The first command that can have a step is `ATTACH` or `CLKPER`. (70_reset_and_hazards.md section 1, derived by the
spec.) -/
def Obligations.FirstCommandAfterReset : Prop :=
  ∀ (p : Config.Params) (u d : Word) (i : Instr),
    (∃ t, exec i (State.resetWith p u d) = .next t) ↔ (i = .attach ∨ ∃ r, i = .clkper r)

/-- Every reset state has the invariant and accounts for every resource. (10_state.md sections 4, 8.) -/
def Obligations.ResetHasInvariant : Prop :=
  ∀ (p : Config.Params) (u d : Word),
    (State.resetWith p u d).Inv ∧ (State.resetWith p u d).ResourcesBalanced ∧
    State.reset.Inv ∧ State.reset.ResourcesBalanced

/-- Every step keeps the invariant: `CLK_NS`, `BASE` and `REGION_LEN` hold values exactly while `Attached`, the layout
then passed its validation, the clock period is at most 1_000_000_000, and `CIDX` counts the responses. (10_state.md
sections 1, 2, 4, derived by the spec; the count of responses is the model's record, log 6.) -/
def Obligations.StepKeepsInvariant : Prop :=
  ∀ s t : State, s.Inv → step s = .next t → t.Inv

/-- Every step keeps the account of resources: while `Attached` the converter holds one mapping, one clock handle and
one registration, and otherwise none. (10_state.md section 4, 44_lifecycle.md section 2.) -/
def Obligations.StepKeepsResourcesBalanced : Prop :=
  ∀ s t : State, s.ResourcesBalanced → step s = .next t → t.ResourcesBalanced

/-- No run of a machine in its invariant ends in a fault: it goes on or is refused. (60_exceptions.md section 4; the two
faults are the model's, log 7.) -/
def Obligations.RunsNeverFault : Prop :=
  ∀ (k : Nat) (s : State) (f : Fault), s.Inv → Host.Core.run Sys2Proof.core k s ≠ .fault f
end

