-- ==== Sys2Proof/Laws/Fields.lean ====
section
/-! SUPPORT. Laws/Fields.lean: the fields of command and response words, and the operand arithmetic, in numbers. -/

namespace Sys2Proof

/-- The fields of a word written as `op ‖ A ‖ B`. -/
theorem fields_append (op : BitVec 8) (a b : Word) :
    opField (op ++ a ++ b : CommandWord) = op ∧ aField (op ++ a ++ b : CommandWord) = a ∧
      bField (op ++ a ++ b : CommandWord) = b := by
  refine ⟨?_, ?_, ?_⟩ <;> apply BitVec.eq_of_getLsbD_eq <;> intro i hi
  · have h₁ : ¬ 64 + i < 32 := by omega
    have h₂ : ¬ 64 + i - 32 < 32 := by omega
    have h₃ : 64 + i - 32 - 32 = i := by omega
    simp only [opField, BitVec.getLsbD_extractLsb', BitVec.getLsbD_append, hi, h₁, h₂, h₃]
    simp
  · have h₁ : ¬ 32 + i < 32 := by omega
    have h₃ : 32 + i - 32 = i := by omega
    simp only [aField, BitVec.getLsbD_extractLsb', BitVec.getLsbD_append, hi, h₁, h₃]
    simp
  · simp only [bField, BitVec.getLsbD_extractLsb', BitVec.getLsbD_append, hi, Nat.zero_add]
    simp

/-- A word is made of its three fields. -/
theorem fields_cover (cw : CommandWord) : (opField cw ++ aField cw ++ bField cw : CommandWord) = cw := by
  apply BitVec.eq_of_getLsbD_eq
  intro i hi
  simp only [opField, aField, bField, BitVec.getLsbD_append, BitVec.getLsbD_extractLsb']
  by_cases h₁ : i < 32
  · simp [h₁]
  · by_cases h₂ : i - 32 < 32
    · have h₃ : 32 + (i - 32) = i := by omega
      simp [h₁, h₂, h₃]
    · have h₃ : 64 + (i - 32 - 32) = i := by omega
      have h₄ : i - 32 - 32 < 8 := by omega
      simp [h₁, h₂, h₃, h₄]

/-- The fields of a word as numbers. -/
theorem toNat_fields (cw : CommandWord) :
    (opField cw).toNat = cw.toNat / 2 ^ 64 ∧ (aField cw).toNat = cw.toNat / 2 ^ 32 % 2 ^ 32 ∧
      (bField cw).toNat = cw.toNat % 2 ^ 32 := by
  have := cw.isLt
  refine ⟨?_, ?_, ?_⟩
  · simp only [opField, BitVec.extractLsb'_toNat, Nat.shiftRight_eq_div_pow]
    omega
  · simp [aField, BitVec.extractLsb'_toNat, Nat.shiftRight_eq_div_pow]
  · simp [bField, BitVec.extractLsb'_toNat]

/-- A word written as `x ‖ y ‖ z`, as a number. -/
theorem toNat_append_fields (x : BitVec 8) (y z : Word) :
    (x ++ y ++ z : BitVec 72).toNat = x.toNat * 2 ^ 64 + y.toNat * 2 ^ 32 + z.toNat := by
  have := y.isLt
  have := z.isLt
  rw [BitVec.toNat_append, BitVec.toNat_append, ← Nat.shiftLeft_add_eq_or_of_lt (by omega),
    ← Nat.shiftLeft_add_eq_or_of_lt (by omega)]
  simp only [Nat.shiftLeft_eq]
  omega

namespace Machine

/-- Unsigned division of words is division of their values. -/
theorem udiv_ofNat (a b : Word) (h : b ≠ 0) : udiv a b h = .ofNat 32 (a.toNat / b.toNat) := by
  apply BitVec.eq_of_toNat_eq
  have := a.isLt
  have : a.toNat / b.toNat ≤ a.toNat := Nat.div_le_self _ _
  rw [udiv, BitVec.toNat_udiv, BitVec.toNat_ofNat, Nat.mod_eq_of_lt (by omega)]

theorem toNat_pos {b : Word} (h : b ≠ 0) : 0 < b.toNat := by
  rcases Nat.eq_zero_or_pos b.toNat with h₀ | h₀
  · exact (h (BitVec.eq_of_toNat_eq (by simpa using h₀))).elim
  · exact h₀

theorem subWrap_toNat (a b : Word) : (subWrap a b).toNat = (a.toNat + 2 ^ 32 - b.toNat) % 2 ^ 32 := by
  have := b.isLt
  rw [subWrap, BitVec.toNat_sub]
  congr 1
  omega

theorem nsPerS_toNat : nsPerS.toNat = 1_000_000_000 := by decide

end Machine

end Sys2Proof
end

