-- ==== Sys2Proof/Laws/State.lean ====
section
/-! SUPPORT. Laws/State.lean: one lemma per field per update of `State`, so that no proof unfolds an update. -/

namespace Sys2Proof.Machine

variable (s : State) (e : Event) (r : Response) (k : ErrorKind) (p : Payload) (l : Latch) (q : Word) (b n w : Nat)
  (cw : CommandWord) (tr : List Event) (rs : List Response)

/-! ### `State.emit` -/

@[simp] theorem State.emit_up : (s.emit e).up = s.up := rfl
@[simp] theorem State.emit_down : (s.emit e).down = s.down := rfl
@[simp] theorem State.emit_clkNs : (s.emit e).clkNs = s.clkNs := rfl
@[simp] theorem State.emit_lstate : (s.emit e).lstate = s.lstate := rfl
@[simp] theorem State.emit_base : (s.emit e).base = s.base := rfl
@[simp] theorem State.emit_regionLen : (s.emit e).regionLen = s.regionLen := rfl
@[simp] theorem State.emit_cidx : (s.emit e).cidx = s.cidx := rfl
@[simp] theorem State.emit_trace : (s.emit e).trace = s.trace ++ [e] := rfl
@[simp] theorem State.emit_responses : (s.emit e).responses = s.responses := rfl
@[simp] theorem State.emit_params : (s.emit e).params = s.params := rfl
@[simp] theorem State.emit_plat : (s.emit e).plat = s.plat := rfl
@[simp] theorem State.emit_midLatches : (s.emit e).midLatches = s.midLatches := rfl
@[simp] theorem State.emit_pending : (s.emit e).pending = s.pending := rfl

/-! ### `State.respond` -/

@[simp] theorem State.respond_up : (s.respond r).up = s.up := rfl
@[simp] theorem State.respond_down : (s.respond r).down = s.down := rfl
@[simp] theorem State.respond_clkNs : (s.respond r).clkNs = s.clkNs := rfl
@[simp] theorem State.respond_lstate : (s.respond r).lstate = s.lstate := rfl
@[simp] theorem State.respond_base : (s.respond r).base = s.base := rfl
@[simp] theorem State.respond_regionLen : (s.respond r).regionLen = s.regionLen := rfl
@[simp] theorem State.respond_cidx : (s.respond r).cidx = s.cidx + 1 := rfl
@[simp] theorem State.respond_trace : (s.respond r).trace = s.trace := rfl
@[simp] theorem State.respond_responses : (s.respond r).responses = s.responses ++ [r] := rfl
@[simp] theorem State.respond_params : (s.respond r).params = s.params := rfl
@[simp] theorem State.respond_plat : (s.respond r).plat = s.plat := rfl
@[simp] theorem State.respond_midLatches : (s.respond r).midLatches = s.midLatches := rfl
@[simp] theorem State.respond_pending : (s.respond r).pending = s.pending := rfl

/-! ### `State.latch` -/

@[simp] theorem State.latch_up : (s.latch l).up = l.up := rfl
@[simp] theorem State.latch_down : (s.latch l).down = l.down := rfl
@[simp] theorem State.latch_clkNs : (s.latch l).clkNs = s.clkNs := rfl
@[simp] theorem State.latch_lstate : (s.latch l).lstate = s.lstate := rfl
@[simp] theorem State.latch_base : (s.latch l).base = s.base := rfl
@[simp] theorem State.latch_regionLen : (s.latch l).regionLen = s.regionLen := rfl
@[simp] theorem State.latch_cidx : (s.latch l).cidx = s.cidx := rfl
@[simp] theorem State.latch_trace : (s.latch l).trace = s.trace ++ [.latch l.up l.down] := rfl
@[simp] theorem State.latch_responses : (s.latch l).responses = s.responses := rfl
@[simp] theorem State.latch_params : (s.latch l).params = s.params := rfl
@[simp] theorem State.latch_plat : (s.latch l).plat = s.plat := rfl
@[simp] theorem State.latch_midLatches : (s.latch l).midLatches = s.midLatches := rfl
@[simp] theorem State.latch_pending : (s.latch l).pending = s.pending := rfl

/-! ### `State.construct` -/

@[simp] theorem State.construct_up : (s.construct q b n).up = s.up := rfl
@[simp] theorem State.construct_down : (s.construct q b n).down = s.down := rfl
@[simp] theorem State.construct_clkNs : (s.construct q b n).clkNs = some q := rfl
@[simp] theorem State.construct_lstate : (s.construct q b n).lstate = .attached := rfl
@[simp] theorem State.construct_base : (s.construct q b n).base = some b := rfl
@[simp] theorem State.construct_regionLen : (s.construct q b n).regionLen = some n := rfl
@[simp] theorem State.construct_cidx : (s.construct q b n).cidx = s.cidx := rfl
@[simp] theorem State.construct_trace : (s.construct q b n).trace = s.trace ++ [.chanRegister] := rfl
@[simp] theorem State.construct_responses : (s.construct q b n).responses = s.responses := rfl
@[simp] theorem State.construct_params : (s.construct q b n).params = s.params := rfl
@[simp] theorem State.construct_plat : (s.construct q b n).plat = s.plat := rfl
@[simp] theorem State.construct_midLatches : (s.construct q b n).midLatches = s.midLatches := rfl
@[simp] theorem State.construct_pending : (s.construct q b n).pending = s.pending := rfl

/-! ### `State.illegalWord` -/

@[simp] theorem State.illegalWord_up : (s.illegalWord).up = s.up := rfl
@[simp] theorem State.illegalWord_down : (s.illegalWord).down = s.down := rfl
@[simp] theorem State.illegalWord_clkNs : (s.illegalWord).clkNs = s.clkNs := rfl
@[simp] theorem State.illegalWord_lstate : (s.illegalWord).lstate = s.lstate := rfl
@[simp] theorem State.illegalWord_base : (s.illegalWord).base = s.base := rfl
@[simp] theorem State.illegalWord_regionLen : (s.illegalWord).regionLen = s.regionLen := rfl
@[simp] theorem State.illegalWord_cidx : (s.illegalWord).cidx = s.cidx + 1 := rfl
@[simp] theorem State.illegalWord_trace : (s.illegalWord).trace = s.trace := rfl
@[simp] theorem State.illegalWord_responses : (s.illegalWord).responses = s.responses ++ [.err .illegalCommand] := rfl
@[simp] theorem State.illegalWord_params : (s.illegalWord).params = s.params := rfl
@[simp] theorem State.illegalWord_plat : (s.illegalWord).plat = s.plat := rfl
@[simp] theorem State.illegalWord_midLatches : (s.illegalWord).midLatches = s.midLatches := rfl
@[simp] theorem State.illegalWord_pending : (s.illegalWord).pending = s.pending := rfl

/-! ### `State.withRecords` -/

@[simp] theorem State.withRecords_up : (s.withRecords tr n rs).up = s.up := rfl
@[simp] theorem State.withRecords_down : (s.withRecords tr n rs).down = s.down := rfl
@[simp] theorem State.withRecords_clkNs : (s.withRecords tr n rs).clkNs = s.clkNs := rfl
@[simp] theorem State.withRecords_lstate : (s.withRecords tr n rs).lstate = s.lstate := rfl
@[simp] theorem State.withRecords_base : (s.withRecords tr n rs).base = s.base := rfl
@[simp] theorem State.withRecords_regionLen : (s.withRecords tr n rs).regionLen = s.regionLen := rfl
@[simp] theorem State.withRecords_cidx : (s.withRecords tr n rs).cidx = n := rfl
@[simp] theorem State.withRecords_trace : (s.withRecords tr n rs).trace = tr := rfl
@[simp] theorem State.withRecords_responses : (s.withRecords tr n rs).responses = rs := rfl
@[simp] theorem State.withRecords_params : (s.withRecords tr n rs).params = s.params := rfl
@[simp] theorem State.withRecords_plat : (s.withRecords tr n rs).plat = s.plat := rfl
@[simp] theorem State.withRecords_midLatches : (s.withRecords tr n rs).midLatches = s.midLatches := rfl
@[simp] theorem State.withRecords_pending : (s.withRecords tr n rs).pending = s.pending := rfl

/-! ### `State.issue` -/

@[simp] theorem State.issue_up : (s.issue cw).up = s.up := rfl
@[simp] theorem State.issue_down : (s.issue cw).down = s.down := rfl
@[simp] theorem State.issue_clkNs : (s.issue cw).clkNs = s.clkNs := rfl
@[simp] theorem State.issue_lstate : (s.issue cw).lstate = s.lstate := rfl
@[simp] theorem State.issue_base : (s.issue cw).base = s.base := rfl
@[simp] theorem State.issue_regionLen : (s.issue cw).regionLen = s.regionLen := rfl
@[simp] theorem State.issue_cidx : (s.issue cw).cidx = s.cidx := rfl
@[simp] theorem State.issue_trace : (s.issue cw).trace = s.trace := rfl
@[simp] theorem State.issue_responses : (s.issue cw).responses = s.responses := rfl
@[simp] theorem State.issue_params : (s.issue cw).params = s.params := rfl
@[simp] theorem State.issue_plat : (s.issue cw).plat = s.plat := rfl
@[simp] theorem State.issue_midLatches : (s.issue cw).midLatches = s.midLatches := rfl
@[simp] theorem State.issue_pending : (s.issue cw).pending = .command cw s.plat s.midLatches :: s.pending := rfl

/-! ### `State.withFetchWord` -/

@[simp] theorem State.withFetchWord_up : (s.withFetchWord n w).up = s.up := rfl
@[simp] theorem State.withFetchWord_down : (s.withFetchWord n w).down = s.down := rfl
@[simp] theorem State.withFetchWord_clkNs : (s.withFetchWord n w).clkNs = s.clkNs := rfl
@[simp] theorem State.withFetchWord_lstate : (s.withFetchWord n w).lstate = s.lstate := rfl
@[simp] theorem State.withFetchWord_base : (s.withFetchWord n w).base = s.base := rfl
@[simp] theorem State.withFetchWord_regionLen : (s.withFetchWord n w).regionLen = s.regionLen := rfl
@[simp] theorem State.withFetchWord_cidx : (s.withFetchWord n w).cidx = s.cidx := rfl
@[simp] theorem State.withFetchWord_trace : (s.withFetchWord n w).trace = s.trace := rfl
@[simp] theorem State.withFetchWord_responses : (s.withFetchWord n w).responses = s.responses := rfl
@[simp] theorem State.withFetchWord_params : (s.withFetchWord n w).params = s.params := rfl
@[simp] theorem State.withFetchWord_plat : (s.withFetchWord n w).plat = s.plat := rfl
@[simp] theorem State.withFetchWord_midLatches : (s.withFetchWord n w).midLatches = s.midLatches := rfl
@[simp] theorem State.withFetchWord_pending : (s.withFetchWord n w).pending = .command (tableWord n w) s.plat s.midLatches :: s.pending := rfl

/-! ### Teardown, errors and results -/

@[simp] theorem State.teardown_up : s.teardown.up = s.up := rfl
@[simp] theorem State.teardown_down : s.teardown.down = s.down := rfl
@[simp] theorem State.teardown_clkNs : s.teardown.clkNs = none := rfl
@[simp] theorem State.teardown_lstate : s.teardown.lstate = .detached := rfl
@[simp] theorem State.teardown_base : s.teardown.base = none := rfl
@[simp] theorem State.teardown_regionLen : s.teardown.regionLen = none := rfl
@[simp] theorem State.teardown_cidx : s.teardown.cidx = s.cidx := rfl
@[simp] theorem State.teardown_trace :
    s.teardown.trace = s.trace ++ [.clkDisable, .clkRelease, .unmapRegion, .chanUnregister] := by
  simp [State.teardown]
@[simp] theorem State.teardown_responses : s.teardown.responses = s.responses := rfl
@[simp] theorem State.teardown_params : s.teardown.params = s.params := rfl
@[simp] theorem State.teardown_plat : s.teardown.plat = s.plat := rfl
@[simp] theorem State.teardown_midLatches : s.teardown.midLatches = s.midLatches := rfl
@[simp] theorem State.teardown_pending : s.teardown.pending = s.pending := rfl

@[simp] theorem State.raise_eq : s.raise k = s.respond (.err k) := rfl
@[simp] theorem State.finish_eq : s.finish p = s.respond (.ok p) := rfl

end Sys2Proof.Machine
end

