-- ==== Sys2Proof/Laws/Ops.lean ====
section
/-! SUPPORT. Laws/Ops.lean: one lemma per shared operation that says once everything it can do. Proofs about commands
cite these and never unfold the operation. -/

namespace Sys2Proof.Machine

/-! ### Latches -/

theorem upAfter_cons (l : Latch) (ls : List Latch) (u : Word) : upAfter (l :: ls) u = upAfter ls l.up := by
  cases ls with
  | nil => rfl
  | cons m ms => simp [upAfter, List.getLast?_cons_cons]; split <;> simp_all

theorem downAfter_cons (l : Latch) (ls : List Latch) (d : Word) : downAfter (l :: ls) d = downAfter ls l.down := by
  cases ls with
  | nil => rfl
  | cons m ms => simp [downAfter, List.getLast?_cons_cons]; split <;> simp_all

/-- Latches in order: the last one's counts stand, and each is recorded. -/
theorem State.latchAll_eq (ls : List Latch) (s : State) :
    s.latchAll ls = { s with
      up := upAfter ls s.up, down := downAfter ls s.down, trace := s.trace ++ latchEvents ls } := by
  induction ls generalizing s with
  | nil => simp [State.latchAll, upAfter, downAfter, latchEvents]
  | cons l ls ih =>
    rw [State.latchAll, ih, upAfter_cons, downAfter_cons]
    simp [State.latch, State.emit, latchEvents]

theorem State.latchBetweenAccesses_eq (s : State) :
    s.latchBetweenAccesses = { s with
      up := upAfter s.admittedMid s.up, down := downAfter s.admittedMid s.down,
      trace := s.trace ++ latchEvents s.admittedMid } :=
  s.latchAll_eq _

theorem State.admittedMid_congr {s t : State} (hp : t.params = s.params) (hm : t.midLatches = s.midLatches) :
    t.admittedMid = s.admittedMid := by
  simp [State.admittedMid, hp, hm]

/-- A latch between commands happens or, under `LATCH = none`, does not. -/
theorem State.latchBetweenCommands_cases (l : Latch) (s : State) :
    (s.params.latch = .none ∧ s.latchBetweenCommands l = s) ∨
    (s.params.latch ≠ .none ∧ s.latchBetweenCommands l = s.latch l) := by
  unfold State.latchBetweenCommands
  split <;> simp_all

/-! ### The memory and the register port -/

/-- Everything `regAt` can answer. -/
theorem State.regAt_cases (addr : Nat) (s : State) :
    (s.lstate ≠ .attached ∧ s.regAt addr = .error (.refused .portNotAttached)) ∨
    (s.lstate = .attached ∧ s.base = none ∧ s.regAt addr = .error (.fault .noMapping)) ∨
    (∃ b, s.lstate = .attached ∧ s.base = some b ∧ addr = b + s.params.layout.offUp ∧ s.regAt addr = .ok .up) ∨
    (∃ b, s.lstate = .attached ∧ s.base = some b ∧ addr ≠ b + s.params.layout.offUp ∧
      addr = b + s.params.layout.offDown ∧ s.regAt addr = .ok .down) ∨
    (∃ b, s.lstate = .attached ∧ s.base = some b ∧ addr ≠ b + s.params.layout.offUp ∧
      addr ≠ b + s.params.layout.offDown ∧ s.regAt addr = .error (.refused (.undefinedAddress addr))) := by
  unfold State.regAt
  split
  · simp_all
  · simp_all
  · simp_all
  · split <;> [skip; split] <;> simp_all

/-- The register at an offset of the mapped region. -/
theorem State.regAt_add {s : State} {b : Nat} (off : Nat) (hl : s.lstate = .attached) (hb : s.base = some b) :
    s.regAt (b + off) =
      if off = s.params.layout.offUp then .ok .up
      else if off = s.params.layout.offDown then .ok .down
      else .error (.refused (.undefinedAddress (b + off))) := by
  simp [State.regAt, hl, hb]

/-- Everything a successful `portAddress` can answer. -/
theorem State.portAddress_ok {off a : Nat} {s : State} :
    s.portAddress off = .ok a ↔
      s.lstate = .attached ∧ (off = s.params.layout.offUp ∨ off = s.params.layout.offDown) ∧
        ∃ b, s.base = some b ∧ a = b + off := by
  unfold State.portAddress
  rcases hl : s.lstate <;> rcases hb : s.base <;> simp only [] <;> try split
  all_goals simp_all
  all_goals exact eq_comm

/-- Everything a successful `RegWrite32` does. -/
theorem State.regWrite32_ok {off : Nat} {v : Word} {s t : State} (h : s.regWrite32 off v = .ok t) :
    ∃ b, s.lstate = .attached ∧ s.base = some b ∧
      ((off = s.params.layout.offUp ∧ t = { s with up := v, trace := s.trace ++ [.regWrite off v] }) ∨
       (off ≠ s.params.layout.offUp ∧ off = s.params.layout.offDown ∧
        t = { s with down := v, trace := s.trace ++ [.regWrite off v] })) := by
  unfold State.regWrite32 at h
  split at h
  · cases h
  · rename_i a ha
    obtain ⟨hl, ho, b, hb, rfl⟩ := State.portAddress_ok.mp ha
    refine ⟨b, hl, hb, ?_⟩
    rw [State.memWrite, State.regAt_add off hl hb] at h
    by_cases hu : off = s.params.layout.offUp
    · simp only [if_pos hu, Except.ok.injEq] at h
      exact .inl ⟨hu, h.symm⟩
    · have hd := ho.resolve_left hu
      simp only [if_neg hu, if_pos hd, Except.ok.injEq] at h
      exact .inr ⟨hu, hd, h.symm⟩

/-- Everything a successful `RegRead32` does: it records the value and changes no register. -/
theorem State.regRead32_ok {off : Nat} {v : Word} {s t : State} (h : s.regRead32 off = .ok (v, t)) :
    ∃ b, s.lstate = .attached ∧ s.base = some b ∧ t = { s with trace := s.trace ++ [.regRead off v] } ∧
      ((off = s.params.layout.offUp ∧ v = s.up) ∨
       (off ≠ s.params.layout.offUp ∧ off = s.params.layout.offDown ∧ v = s.down)) := by
  unfold State.regRead32 at h
  split at h
  · cases h
  · rename_i a ha
    obtain ⟨hl, ho, b, hb, rfl⟩ := State.portAddress_ok.mp ha
    refine ⟨b, hl, hb, ?_⟩
    rw [State.memRead, State.regAt_add off hl hb] at h
    by_cases hu : off = s.params.layout.offUp
    · simp only [if_pos hu, Except.ok.injEq, Prod.mk.injEq] at h
      obtain ⟨rfl, rfl⟩ := h
      exact ⟨rfl, .inl ⟨hu, rfl⟩⟩
    · have hd := ho.resolve_left hu
      simp only [if_neg hu, if_pos hd, Except.ok.injEq, Prod.mk.injEq] at h
      obtain ⟨rfl, rfl⟩ := h
      exact ⟨rfl, .inr ⟨hu, hd, rfl⟩⟩

/-- What a successful `RegWrite32` leaves unchanged, whatever the layout. -/
theorem State.regWrite32_frame {off : Nat} {v : Word} {s t : State} (h : s.regWrite32 off v = .ok t) :
    ∃ u d, t = { s with up := u, down := d, trace := s.trace ++ [.regWrite off v] } := by
  obtain ⟨_, _, _, ⟨_, ht⟩ | ⟨_, _, ht⟩⟩ := State.regWrite32_ok h
  · exact ⟨v, s.down, ht⟩
  · exact ⟨s.up, v, ht⟩

/-- `RegWrite32(OFF_UP, v)` on an attached converter. -/
theorem State.regWrite32_up {s : State} {b off : Nat} (v : Word) (hl : s.lstate = .attached) (hb : s.base = some b)
    (ho : off = s.params.layout.offUp) :
    s.regWrite32 off v = .ok { s with up := v, trace := s.trace ++ [.regWrite off v] } := by
  rw [State.regWrite32, State.portAddress_ok.mpr ⟨hl, .inl ho, b, hb, rfl⟩]
  simp only [State.memWrite, State.regAt_add off hl hb, if_pos ho]
  rfl

/-- `RegWrite32(OFF_DOWN, v)` on an attached converter whose two offsets differ. -/
theorem State.regWrite32_down {s : State} {b off : Nat} (v : Word) (hl : s.lstate = .attached) (hb : s.base = some b)
    (ho : off = s.params.layout.offDown) (hne : off ≠ s.params.layout.offUp) :
    s.regWrite32 off v = .ok { s with down := v, trace := s.trace ++ [.regWrite off v] } := by
  rw [State.regWrite32, State.portAddress_ok.mpr ⟨hl, .inr ho, b, hb, rfl⟩]
  simp only [State.memWrite, State.regAt_add off hl hb, if_pos ho, if_neg hne]
  rfl

/-- `RegRead32(OFF_UP)` on an attached converter. -/
theorem State.regRead32_up {s : State} {b off : Nat} (hl : s.lstate = .attached) (hb : s.base = some b)
    (ho : off = s.params.layout.offUp) :
    s.regRead32 off = .ok (s.up, { s with trace := s.trace ++ [.regRead off s.up] }) := by
  rw [State.regRead32, State.portAddress_ok.mpr ⟨hl, .inl ho, b, hb, rfl⟩]
  simp only [State.memRead, State.regAt_add off hl hb, if_pos ho]
  rfl

/-- `RegRead32(OFF_DOWN)` on an attached converter whose two offsets differ. -/
theorem State.regRead32_down {s : State} {b off : Nat} (hl : s.lstate = .attached) (hb : s.base = some b)
    (ho : off = s.params.layout.offDown) (hne : off ≠ s.params.layout.offUp) :
    s.regRead32 off = .ok (s.down, { s with trace := s.trace ++ [.regRead off s.down] }) := by
  rw [State.regRead32, State.portAddress_ok.mpr ⟨hl, .inr ho, b, hb, rfl⟩]
  simp only [State.memRead, State.regAt_add off hl hb, if_pos ho, if_neg hne]
  rfl

/-! ### The channel -/

/-- The channel has a clock period exactly while `Attached` with `CLK_NS`. -/
theorem State.channelClock_ok {un de : Refusal} {s : State} {c : Word} :
    s.channelClock un de = .ok c ↔ s.lstate = .attached ∧ s.clkNs = some c := by
  unfold State.channelClock
  split <;> simp_all

/-- Where the channel has no clock period. -/
theorem State.channelClock_error {un de : Refusal} {s : State} {e : Stop} :
    s.channelClock un de = .error e ↔
      (s.lstate = .unattached ∧ e = .refused un) ∨ (s.lstate = .detached ∧ e = .refused de) ∨
      (s.lstate = .attached ∧ s.clkNs = none ∧ e = .fault .noClockPeriod) := by
  unfold State.channelClock
  rcases hl : s.lstate <;> rcases hc : s.clkNs <;> simp [eq_comm]

/-- The write pair of `CONFIG` on an attached converter whose two offsets differ. -/
theorem State.writeCounts_eq {s : State} {b : Nat} (u d : Word) (hl : s.lstate = .attached) (hb : s.base = some b)
    (hd : s.params.layout.offUp ≠ s.params.layout.offDown) :
    s.writeCounts u d = .ok { s with
      up := upAfter s.admittedMid u, down := d,
      trace := s.trace ++ [.regWrite s.params.layout.offUp u] ++ latchEvents s.admittedMid ++
        [.regWrite s.params.layout.offDown d] } := by
  unfold State.writeCounts
  rw [State.regWrite32_up u hl hb rfl]
  simp only [State.latchBetweenAccesses_eq]
  rw [State.regWrite32_down (b := b)]
  · simp [State.admittedMid]
  all_goals first | exact hl | exact hb | exact hd.symm | rfl

/-- The read pair of `CAPTURE` on an attached converter whose two offsets differ. -/
theorem State.readCounts_eq {s : State} {b : Nat} (hl : s.lstate = .attached) (hb : s.base = some b)
    (hd : s.params.layout.offUp ≠ s.params.layout.offDown) :
    s.readCounts = .ok (s.up, downAfter s.admittedMid s.down, { s with
      up := upAfter s.admittedMid s.up, down := downAfter s.admittedMid s.down,
      trace := s.trace ++ [.regRead s.params.layout.offUp s.up] ++ latchEvents s.admittedMid ++
        [.regRead s.params.layout.offDown (downAfter s.admittedMid s.down)] }) := by
  unfold State.readCounts
  rw [State.regRead32_up hl hb rfl]
  simp only [State.latchBetweenAccesses_eq]
  rw [State.regRead32_down (b := b)]
  · simp [State.admittedMid]
  all_goals first | exact hl | exact hb | exact hd.symm | rfl

/-- An event of the registers: an access or a latch. -/
def Event.OfRegisters (e : Event) : Prop :=
  (∃ o v, e = .regWrite o v) ∨ (∃ o v, e = .regRead o v) ∨ ∃ u d, e = .latch u d

/-- What happens between two accesses and the accesses themselves are events of the registers. -/
theorem Event.ofRegisters_between {a b : Event} (ls : List Latch) (ha : a.OfRegisters) (hb : b.OfRegisters) :
    ∀ e ∈ [a] ++ latchEvents ls ++ [b], e.OfRegisters := by
  intro e he
  simp only [List.mem_append, List.mem_singleton, latchEvents, List.mem_map] at he
  rcases he with (rfl | ⟨l, _, rfl⟩) | rfl
  · exact ha
  · exact .inr (.inr ⟨_, _, rfl⟩)
  · exact hb

/-- What the write pair leaves unchanged, whatever the layout. -/
theorem State.writeCounts_frame {u d : Word} {s t : State} (h : s.writeCounts u d = .ok t) :
    ∃ u' d', t = { s with
      up := u', down := d',
      trace := s.trace ++ ([.regWrite s.params.layout.offUp u] ++ latchEvents s.admittedMid ++
        [.regWrite s.params.layout.offDown d]) } := by
  unfold State.writeCounts at h
  split at h
  · cases h
  · rename_i t₁ h₁
    obtain ⟨u₁, d₁, rfl⟩ := State.regWrite32_frame h₁
    obtain ⟨u₂, d₂, rfl⟩ := State.regWrite32_frame h
    exact ⟨u₂, d₂, by simp [State.latchBetweenAccesses_eq, State.admittedMid]⟩

/-- What the read pair leaves unchanged, whatever the layout: without a latch it writes no register. -/
theorem State.readCounts_frame {u d : Word} {s t : State} (h : s.readCounts = .ok (u, d, t)) :
    t = { s with
      up := upAfter s.admittedMid s.up, down := downAfter s.admittedMid s.down,
      trace := s.trace ++ ([.regRead s.params.layout.offUp u] ++ latchEvents s.admittedMid ++
        [.regRead s.params.layout.offDown d]) } := by
  unfold State.readCounts at h
  split at h
  · cases h
  · rename_i u t₁ h₁
    obtain ⟨_, _, _, rfl, _⟩ := State.regRead32_ok h₁
    split at h
    · cases h
    · rename_i d t₂ h₂
      cases h
      obtain ⟨_, _, _, rfl, _⟩ := State.regRead32_ok h₂
      simp [State.latchBetweenAccesses_eq, State.admittedMid]

/-! ### The lifecycle -/

/-- Step 1 of `ATTACH` maps the region exactly when one is described, mapping succeeds and the layout is legal. -/
theorem State.mappable_some {s : State} {b n : Nat} :
    s.mappable = some (b, n) ↔
      s.plat.region = some (b, n) ∧ s.plat.mapOk = true ∧ LayoutOK s.params.layout n := by
  unfold State.mappable
  rcases hr : s.plat.region with _ | ⟨b', n'⟩
  · simp
  · by_cases hm : s.plat.mapOk = true ∧ LayoutOK s.params.layout n'
    · simp only [if_pos hm, Option.some.injEq, Prod.mk.injEq]
      constructor
      · rintro ⟨rfl, rfl⟩
        exact ⟨⟨rfl, rfl⟩, hm⟩
      · exact fun h => h.1
    · simp only [if_neg hm, Option.some.injEq, Prod.mk.injEq]
      constructor
      · exact fun h => nomatch h
      · rintro ⟨⟨rfl, rfl⟩, h⟩
        exact (hm h).elim

/-- Step 3 of `ATTACH` succeeds exactly for a rate that is given and not zero. -/
theorem attachPeriod_ok {rate : Option Word} {q : Word} :
    attachPeriod rate = .ok q ↔ ∃ r, rate = some r ∧ r ≠ 0 ∧ q = nsPerS / r := by
  rcases rate with _ | r
  · simp [attachPeriod]
  · by_cases h : r = 0
    · simp [attachPeriod, clockPeriodNs, h]
    · simp only [attachPeriod, clockPeriodNs, dif_neg h, udiv, Except.ok.injEq, Option.some.injEq]
      constructor
      · rintro rfl
        exact ⟨r, rfl, h, rfl⟩
      · rintro ⟨_, rfl, _, rfl⟩
        rfl

/-- The only error of step 3 is `ClockUnavailable`. -/
theorem attachPeriod_error {rate : Option Word} {k : ErrorKind} :
    attachPeriod rate = .error k ↔ k = .clockUnavailable ∧ (rate = none ∨ rate = some 0) := by
  rcases rate with _ | r
  · simp [attachPeriod, eq_comm]
  · by_cases h : r = 0
    · subst h
      simp [attachPeriod, clockPeriodNs, eq_comm]
    · simp only [attachPeriod, clockPeriodNs, dif_neg h, Option.some.injEq]
      exact ⟨fun hk => (nomatch hk), fun hk => (hk.2.elim (fun h' => nomatch h') h).elim⟩

/-- Everything the attach sequence can do: one of its three failures, or the construction of the channel. -/
theorem State.attachSequence_cases (s : State) :
    (s.mappable = none ∧ s.attachSequence = s.respond (.err .resourceUnavailable)) ∨
    (∃ b n, s.mappable = some (b, n) ∧ s.plat.clock = false ∧
      s.attachSequence = { s with trace := s.trace ++ [Event.mapRegion, .unmapRegion] }.respond (.err .clockUnavailable)) ∨
    (∃ b n, s.mappable = some (b, n) ∧ s.plat.clock = true ∧ (s.plat.rate = none ∨ s.plat.rate = some 0) ∧
      s.attachSequence = { s with
        trace := s.trace ++ [Event.mapRegion, .clkAcquire, .clkGetRate s.plat.rate, .clkRelease, .unmapRegion] }.respond
          (.err .clockUnavailable)) ∨
    (∃ b n q, s.mappable = some (b, n) ∧ s.plat.clock = true ∧ attachPeriod s.plat.rate = .ok q ∧
      s.attachSequence = { s with
        clkNs := some q, base := some b, regionLen := some n, lstate := .attached,
        trace := s.trace ++ [Event.mapRegion, .clkAcquire, .clkGetRate s.plat.rate, .chanRegister] }.respond (.ok .unit)) := by
  unfold State.attachSequence
  rcases hm : s.mappable with _ | ⟨b, n⟩
  · exact .inl ⟨rfl, rfl⟩
  · rcases hc : s.plat.clock with _ | _
    · exact .inr (.inl ⟨b, n, rfl, rfl, by simp [State.emit]⟩)
    · rcases hp : attachPeriod s.plat.rate with k | q
      · obtain ⟨rfl, hr⟩ := attachPeriod_error.mp hp
        exact .inr (.inr (.inl ⟨b, n, rfl, rfl, hr, by simp [State.emit]⟩))
      · exact .inr (.inr (.inr ⟨b, n, q, rfl, rfl, rfl, by simp [State.emit, State.construct]⟩))

/-! ### The command port -/

/-- Everything `takeInput` can answer. -/
theorem State.takeInput_cases (s : State) :
    (s.pending = [] ∧ s.takeInput = none) ∨
    (∃ l rest, s.pending = .latch l :: rest ∧ s.takeInput = some (.latch l, { s with pending := rest })) ∨
    (∃ cw plat mid rest, s.pending = .command cw plat mid :: rest ∧
      s.takeInput = some (.command cw plat mid, { s with pending := rest, plat := plat, midLatches := mid })) := by
  unfold State.takeInput
  rcases s.pending with _ | ⟨_ | _, rest⟩ <;> simp

end Sys2Proof.Machine
end

