-- ==== Sys2Proof/Laws/PerInstr.lean ====
section
/-! SUPPORT. Laws/PerInstr.lean: what is said of every command as syntax, one lemma per constructor. -/

namespace Sys2Proof.Laws

/-- A command is well formed, and the three fields of its word are its opcode, its `A` and its `B`
(30_encoding.md R50, R51, R52, R62). -/
def EncodesLegalFields.Statement (i : Instr) : Prop :=
  i.wf = true ∧ opField (encode i) = i.opcode ∧ aField (encode i) = i.rawOperands.a ∧
    bField (encode i) = i.rawOperands.b

theorem EncodesLegalFields.clkper (rateHz : Word) : EncodesLegalFields.Statement (.clkper rateHz) :=
  ⟨rfl, fields_append _ _ _⟩

theorem EncodesLegalFields.config (dutyNs periodNs : Word) :
    EncodesLegalFields.Statement (.config dutyNs periodNs) :=
  ⟨rfl, fields_append _ _ _⟩

theorem EncodesLegalFields.capture (timeout : Word) : EncodesLegalFields.Statement (.capture timeout) :=
  ⟨rfl, fields_append _ _ _⟩

theorem EncodesLegalFields.attach : EncodesLegalFields.Statement .attach :=
  ⟨rfl, fields_append _ _ _⟩

theorem EncodesLegalFields.detach : EncodesLegalFields.Statement .detach :=
  ⟨rfl, fields_append _ _ _⟩

end Sys2Proof.Laws
end

