-- ==== Sys2Proof/Laws/Step.lean ====
section
/-! SUPPORT. Laws/Step.lean: what a command that has a step can do, and what a step can do, said once. -/

namespace Sys2Proof.Machine

/-- `ATTACH` has a step only in `Unattached`, and it is the attach sequence. -/
theorem execAttach_next {s t : State} (h : exec .attach s = .next t) :
    s.lstate = .unattached ∧ t = s.attachSequence := by
  simp only [exec, execAttach] at h
  split at h <;> cases h
  exact ⟨‹_›, rfl⟩

/-- `DETACH` has a step only in `Attached`, and it is the teardown and one response. -/
theorem execDetach_next {s t : State} (h : exec .detach s = .next t) :
    s.lstate = .attached ∧
      t = s.teardown.respond (if s.plat.detachFault = true then .err .detachError else .ok .unit) := by
  simp only [exec, execDetach] at h
  split at h <;> cases h
  exact ⟨‹_›, rfl⟩

/-- `CLKPER` changes nothing but the index and the responses. -/
theorem execClkper_next {r : Word} {s t : State} (h : exec (.clkper r) s = .next t) :
    ∃ x, t = s.respond x ∧ ∀ k, x = .err k → k = .clockUnavailable ∧ r = 0 := by
  simp only [exec, execClkper, clockPeriodNs] at h
  by_cases hr : r = 0
  · rw [dif_pos hr] at h
    cases h
    exact ⟨.err .clockUnavailable, rfl, fun k hk => ⟨by cases hk; rfl, hr⟩⟩
  · rw [dif_neg hr] at h
    cases h
    exact ⟨_, rfl, fun k hk => nomatch hk⟩

/-- `CONFIG` has a step only in `Attached`; it changes the registers, the trace, the index and the responses, and its
only error is `InvalidDutyCycle`. -/
theorem execConfig_next {d p : Word} {s t : State} (h : exec (.config d p) s = .next t) :
    s.lstate = .attached ∧ ∃ c, s.clkNs = some c ∧
      ((DutyInvalid c d ∧ t = s.respond (.err .invalidDutyCycle)) ∨
       (¬ DutyInvalid c d ∧ ∃ u t', s.writeCounts u (c / (c - d)) = .ok t' ∧ u = c / d ∧
          t = t'.respond (.ok .unit))) := by
  simp only [exec, execConfig] at h
  split at h
  · rename_i e _
    cases e <;> cases h
  · rename_i c hc
    obtain ⟨hl, hc⟩ := State.channelClock_ok.mp hc
    refine ⟨hl, c, hc, ?_⟩
    split at h
    · rename_i hd
      cases h
      exact .inl ⟨hd, rfl⟩
    · rename_i hd
      split at h
      · rename_i e _
        cases e <;> cases h
      · rename_i t' ht
        cases h
        exact .inr ⟨hd, _, t', ht, rfl, rfl⟩

/-- `CAPTURE` has a step only in `Attached`; it is the read pair and one response, and its only error is
`CaptureUnavailable`. -/
theorem execCapture_next {x : Word} {s t : State} (h : exec (.capture x) s = .next t) :
    s.lstate = .attached ∧ ∃ c u d t', s.clkNs = some c ∧ s.readCounts = .ok (u, d, t') ∧
      ((CountsUnavailable u (u + d) ∧ t = t'.respond (.err .captureUnavailable)) ∨
       (¬ CountsUnavailable u (u + d) ∧ t = t'.respond (.ok (.measurement (c / u) (c / (u + d)))))) := by
  simp only [exec, execCapture] at h
  split at h
  · rename_i e _
    cases e <;> cases h
  · rename_i c hc
    obtain ⟨hl, hc⟩ := State.channelClock_ok.mp hc
    split at h
    · rename_i e _
      cases e <;> cases h
    · rename_i u d t' ht
      refine ⟨hl, c, u, d, t', hc, ht, ?_⟩
      split at h
      · rename_i hu
        cases h
        exact .inl ⟨hu, rfl⟩
      · rename_i hu
        cases h
        exact .inr ⟨hu, rfl⟩

/-- A command other than `ATTACH` and `DETACH` changes the registers, the trace, the index and the responses only; one
other than `CONFIG` leaves in the registers what the admitted latches leave. -/
theorem exec_next_channel {i : Instr} {s t : State} (h : exec i s = .next t) (ha : i ≠ .attach) (hd : i ≠ .detach) :
    ∃ u d evs r, t = { s with
        up := u, down := d, trace := s.trace ++ evs, cidx := s.cidx + 1, responses := s.responses ++ [r] } ∧
      (∀ e ∈ evs, e.OfRegisters) ∧
      ((∀ a b, i ≠ .config a b) → s.admittedMid = [] → u = s.up ∧ d = s.down) := by
  cases i with
  | clkper r =>
    obtain ⟨x, rfl, _⟩ := execClkper_next h
    exact ⟨s.up, s.down, [], x, by simp [State.respond], by simp, by simp⟩
  | config d p =>
    obtain ⟨_, c, _, ⟨_, rfl⟩ | ⟨_, u, t', ht, _, rfl⟩⟩ := execConfig_next h
    · exact ⟨s.up, s.down, [], _, by simp [State.respond]; rfl, by simp, by simp⟩
    · obtain ⟨u', d', rfl⟩ := State.writeCounts_frame ht
      exact ⟨u', d', _, _, rfl, Event.ofRegisters_between _ (.inl ⟨_, _, rfl⟩) (.inl ⟨_, _, rfl⟩), by simp⟩
  | capture x =>
    obtain ⟨_, c, u, d, t', _, ht, h'⟩ := execCapture_next h
    obtain rfl := State.readCounts_frame ht
    obtain ⟨r, rfl⟩ : ∃ r, t = State.respond r _ := by
      rcases h' with ⟨_, h'⟩ | ⟨_, h'⟩ <;> exact ⟨_, h'⟩
    refine ⟨upAfter s.admittedMid s.up, downAfter s.admittedMid s.down,
      [.regRead s.params.layout.offUp u] ++ latchEvents s.admittedMid ++ [.regRead s.params.layout.offDown d], r,
      by simp [State.respond],
      Event.ofRegisters_between _ (.inr (.inl ⟨_, _, rfl⟩)) (.inr (.inl ⟨_, _, rfl⟩)), ?_⟩
    intro _ hm
    simp [hm, upAfter, downAfter]
  | attach => exact (ha rfl).elim
  | detach => exact (hd rfl).elim

/-- Everything a step that answers a next state can be: waiting, a latch, an illegal word, or the decoded command. -/
theorem step_next {s t : State} (h : step s = .next t) :
    (s.pending = [] ∧ t = s) ∨
    (∃ l rest, s.pending = .latch l :: rest ∧ t = { s with pending := rest }.latchBetweenCommands l) ∨
    (∃ cw plat mid rest, s.pending = .command cw plat mid :: rest ∧
      ((∃ e, decode cw = .error e ∧ t = { s with pending := rest, plat := plat, midLatches := mid }.illegalWord) ∨
       (∃ i, decode cw = .ok i ∧ exec i { s with pending := rest, plat := plat, midLatches := mid } = .next t))) := by
  unfold step at h
  rcases s.takeInput_cases with ⟨h₁, h₂⟩ | ⟨l, rest, h₁, h₂⟩ | ⟨cw, plat, mid, rest, h₁, h₂⟩ <;> rw [h₂] at h
  · cases h
    exact .inl ⟨h₁, rfl⟩
  · cases h
    exact .inr (.inl ⟨l, rest, h₁, rfl⟩)
  · refine .inr (.inr ⟨cw, plat, mid, rest, h₁, ?_⟩)
    dsimp only at h
    split at h
    · cases h
      exact .inl ⟨_, ‹_›, rfl⟩
    · exact .inr ⟨_, ‹_›, h⟩

/-! ### Runs: one step, then the rest -/

theorem run_succ (M : Host.Core) (k : Nat) (s : M.State) :
    Host.Core.run M (k + 1) s =
      match M.step s with
      | .next t => Host.Core.run M k t
      | .fault f => .fault f
      | .refused e => .refused e :=
  rfl

theorem run_next (k : Nat) {s t : State} (h : step s = .next t) :
    Host.Core.run Sys2Proof.core (k + 1) s = Host.Core.run Sys2Proof.core k t := by
  have hs : Sys2Proof.core.step s = .next t := h
  refine (run_succ Sys2Proof.core k s).trans ?_
  rw [hs]

theorem run_fault (k : Nat) {s : State} {f : Fault} (h : step s = .fault f) :
    Host.Core.run Sys2Proof.core (k + 1) s = .fault f := by
  have hs : Sys2Proof.core.step s = .fault f := h
  refine (run_succ Sys2Proof.core k s).trans ?_
  rw [hs]

theorem run_refused (k : Nat) {s : State} {e : Refusal} (h : step s = .refused e) :
    Host.Core.run Sys2Proof.core (k + 1) s = .refused e := by
  have hs : Sys2Proof.core.step s = .refused e := h
  refine (run_succ Sys2Proof.core k s).trans ?_
  rw [hs]

end Sys2Proof.Machine
end

