-- ==== Sys2Proof/Laws/Records.lean ====
section
/-! SUPPORT. Laws/Records.lean: what an operation does to a state with other records (trace, index, responses): the same
as to the state itself, with the same events added to the other trace. -/

namespace Sys2Proof.Machine

variable (s : State) (tr : List Event) (n : Nat) (rs : List Response)

theorem State.portAddress_withRecords (off : Nat) :
    (s.withRecords tr n rs).portAddress off = s.portAddress off := rfl

theorem State.regAt_withRecords (a : Nat) : (s.withRecords tr n rs).regAt a = s.regAt a := rfl

theorem State.channelClock_withRecords (un de : Refusal) :
    (s.withRecords tr n rs).channelClock un de = s.channelClock un de := rfl

theorem State.mappable_withRecords : (s.withRecords tr n rs).mappable = s.mappable := rfl

theorem State.regWrite32_withRecords (off : Nat) (v : Word) :
    (s.withRecords tr n rs).regWrite32 off v =
      match s.regWrite32 off v with
      | .error e => .error e
      | .ok t => .ok (t.withRecords (tr ++ [.regWrite off v]) n rs) := by
  unfold State.regWrite32
  rw [State.portAddress_withRecords]
  cases s.portAddress off with
  | error e => rfl
  | ok a =>
    simp only [State.memWrite]
    rw [State.regAt_withRecords]
    rcases s.regAt a with e | (_ | _) <;> rfl

theorem State.regRead32_withRecords (off : Nat) :
    (s.withRecords tr n rs).regRead32 off =
      match s.regRead32 off with
      | .error e => .error e
      | .ok (v, t) => .ok (v, t.withRecords (tr ++ [.regRead off v]) n rs) := by
  unfold State.regRead32
  rw [State.portAddress_withRecords]
  cases s.portAddress off with
  | error e => rfl
  | ok a =>
    simp only [State.memRead]
    rw [State.regAt_withRecords]
    rcases s.regAt a with e | (_ | _) <;> rfl

theorem State.latchBetweenAccesses_withRecords :
    (s.withRecords tr n rs).latchBetweenAccesses =
      s.latchBetweenAccesses.withRecords (tr ++ latchEvents s.admittedMid) n rs := by
  rw [State.latchBetweenAccesses_eq, State.latchBetweenAccesses_eq]
  rfl

theorem State.writeCounts_withRecords (u d : Word) :
    (s.withRecords tr n rs).writeCounts u d =
      match s.writeCounts u d with
      | .error e => .error e
      | .ok t => .ok (t.withRecords (tr ++ [.regWrite s.params.layout.offUp u] ++ latchEvents s.admittedMid ++
          [.regWrite s.params.layout.offDown d]) n rs) := by
  unfold State.writeCounts
  rw [State.withRecords_params, State.regWrite32_withRecords]
  cases h : s.regWrite32 s.params.layout.offUp u with
  | error e => rfl
  | ok t =>
    obtain ⟨a, b, rfl⟩ := State.regWrite32_frame h
    dsimp only
    rw [State.latchBetweenAccesses_withRecords, State.regWrite32_withRecords]
    rfl

theorem State.readCounts_withRecords :
    (s.withRecords tr n rs).readCounts =
      match s.readCounts with
      | .error e => .error e
      | .ok (u, d, t) => .ok (u, d, t.withRecords (tr ++ [.regRead s.params.layout.offUp u] ++
          latchEvents s.admittedMid ++ [.regRead s.params.layout.offDown d]) n rs) := by
  unfold State.readCounts
  rw [State.withRecords_params, State.regRead32_withRecords]
  cases h : s.regRead32 s.params.layout.offUp with
  | error e => rfl
  | ok p =>
    obtain ⟨u, t⟩ := p
    obtain ⟨_, _, _, rfl, _⟩ := State.regRead32_ok h
    dsimp only
    rw [State.latchBetweenAccesses_withRecords, State.regRead32_withRecords]
    cases State.regRead32 s.params.layout.offDown _ <;> rfl

end Sys2Proof.Machine
end

