-- ==== Sys2Proof/Machine/Text.lean ====
section
/-! DEFINITION. Machine/Text.lean: the text form of commands and responses (30_encoding.md R60, R61), and of the
platform's answers and latches that a test program writes beside them. Texts are lists of characters. Nothing a step
does depends on this file (log 18). -/

namespace Sys2Proof.Machine

/-- Why a line has no meaning. -/
inductive TextError where
  | unknownMnemonic
  | badOperands
  | badAnswers
  deriving DecidableEq, Repr

/-- One line of a test program (30_encoding.md R60). -/
inductive Line where
  /-- Nothing but blanks and a comment. -/
  | blank
  /-- A command, and the platform's answers if the line gives any. -/
  | command (i : Instr) (plat : Option Plat)
  /-- `LATCH up, down`, which is not a command and has no word. -/
  | latch (l : Latch)
  deriving DecidableEq, Repr

/-- The value of a digit in a base up to 16. -/
def digitValue (base : Nat) (c : Char) : Option Nat :=
  let v :=
    if '0' ≤ c ∧ c ≤ '9' then c.toNat - '0'.toNat
    else if 'a' ≤ c ∧ c ≤ 'f' then c.toNat - 'a'.toNat + 10
    else if 'A' ≤ c ∧ c ≤ 'F' then c.toNat - 'A'.toNat + 10
    else 16
  if v < base then some v else none

/-- A hexadecimal numeral after its prefix `0x`: at least one digit. The flag says that a digit came last. -/
def readHex : Bool → List Char → Nat → Option Nat
  | digit, [], acc => if digit then some acc else none
  | _, c :: cs, acc =>
    match digitValue 16 c with
    | none => none
    | some d => readHex true cs (acc * 16 + d)

/-- A decimal numeral; a digit separator `_` stands between two digits. The flag says that a digit came last. -/
def readDecimal : Bool → List Char → Nat → Option Nat
  | digit, [], acc => if digit then some acc else none
  | digit, c :: cs, acc =>
    if c = '_' then (if digit then readDecimal false cs acc else none)
    else
      match digitValue 10 c with
      | none => none
      | some d => readDecimal true cs (acc * 10 + d)

/-- A numeral: decimal, or hexadecimal with the prefix `0x` (30_encoding.md R60). -/
def readNumeral : List Char → Option Nat
  | '0' :: 'x' :: cs => readHex false cs 0
  | cs => readDecimal false cs 0

/-- An operand: a numeral that fits in 32 bits (00_scope.md R5). -/
def readWord (cs : List Char) : Option Word :=
  match readNumeral cs with
  | none => none
  | some n => if n < 2 ^ 32 then some (BitVec.ofNat 32 n) else none

/-- The items of a text separated by a comma and a space, commas inside parentheses left alone. The arguments are the
depth of parentheses and the item read so far, last character first. -/
def splitItems : Nat → List Char → List Char → List (List Char)
  | _, cur, [] => [cur.reverse]
  | 0, cur, ',' :: ' ' :: cs => cur.reverse :: splitItems 0 [] cs
  | depth, cur, '(' :: cs => splitItems (depth + 1) ('(' :: cur) cs
  | depth, cur, ')' :: cs => splitItems (depth - 1) (')' :: cur) cs
  | depth, cur, c :: cs => splitItems depth (c :: cur) cs

/-- The text before the comment, without blanks at either end. -/
def stripLine (cs : List Char) : List Char :=
  (((cs.takeWhile (· != '#')).reverse.dropWhile (· == ' ')).reverse).dropWhile (· == ' ')

/-- The rest of a text after a prefix it begins with. -/
def afterPrefix : List Char → List Char → Option (List Char)
  | [], cs => some cs
  | p :: ps, c :: cs => if p = c then afterPrefix ps cs else none
  | _ :: _, [] => none

/-- The pair of numerals in `(base, len)`. -/
def readPair (cs : List Char) : Option (Nat × Nat) :=
  match cs with
  | '(' :: rest =>
    match rest.reverse with
    | ')' :: inner =>
      match splitItems 0 [] inner.reverse with
      | [a, b] =>
        match readNumeral a, readNumeral b with
        | some x, some y => some (x, y)
        | _, _ => none
      | _ => none
    | _ => none
  | _ => none

/-- One platform answer as the test programs write it, added to those before it. -/
def readAnswer (item : List Char) (p : Plat) : Option Plat :=
  if item = "map_ok".toList then some { p with mapOk := true }
  else if item = "map fails".toList then some { p with mapOk := false }
  else if item = "clock".toList then some { p with clock := true }
  else if item = "no clock".toList then some { p with clock := false }
  else if item = "detach_fault".toList then some { p with detachFault := true }
  else if item = "region=none".toList then some { p with region := none }
  else if item = "rate=none".toList then some { p with rate := none }
  else
    match afterPrefix "region=".toList item, afterPrefix "rate=".toList item with
    | some r, _ => (readPair r).map fun x => { p with region := some x }
    | none, some r => (readWord r).map fun x => { p with rate := some x }
    | none, none => none

/-- The platform answers of a line, in order. -/
def readAnswers : List (List Char) → Plat → Option Plat
  | [], p => some p
  | item :: items, p =>
    match readAnswer item p with
    | none => none
    | some q => readAnswers items q

/-- The braces that hold the platform answers. -/
def openBrace : Char := Char.ofNat 123

/-- The closing brace. -/
def closeBrace : Char := Char.ofNat 125

/-- The answers after an `ATTACH` or `DETACH`: none, or a list in braces; an answer that is not named is that of the
silent platform. -/
def readPlat (cs : List Char) : Except TextError (Option Plat) :=
  match cs with
  | [] => .ok none
  | o :: rest =>
    match rest.reverse with
    | [] => .error .badAnswers
    | c :: inner =>
      if o = openBrace ∧ c = closeBrace then
        if inner = [] then .ok (some Plat.silent)
        else
          match readAnswers (splitItems 0 [] inner.reverse) Plat.silent with
          | none => .error .badAnswers
          | some p => .ok (some p)
      else .error .badAnswers

/-- A line: the mnemonic in capitals, a space, the operands separated by a comma and a space (30_encoding.md R60).
No text form expands to more than one word (R61). -/
def readLine (cs : List Char) : Except TextError Line :=
  let cs := stripLine cs
  let word := cs.takeWhile (· != ' ')
  let rest := (cs.dropWhile (· != ' ')).drop 1
  let operands := if rest = [] then [] else (splitItems 0 [] rest).map readWord
  if word = [] then .ok .blank
  else if word = "CLKPER".toList then
    match operands with
    | [some a] => .ok (.command (.clkper a) none)
    | _ => .error .badOperands
  else if word = "CONFIG".toList then
    match operands with
    | [some a, some b] => .ok (.command (.config a b) none)
    | _ => .error .badOperands
  else if word = "CAPTURE".toList then
    match operands with
    | [some a] => .ok (.command (.capture a) none)
    | _ => .error .badOperands
  else if word = "LATCH".toList then
    match operands with
    | [some a, some b] => .ok (.latch { up := a, down := b })
    | _ => .error .badOperands
  else if word = "ATTACH".toList then
    match readPlat rest with
    | .error e => .error e
    | .ok p => .ok (.command .attach p)
  else if word = "DETACH".toList then
    match readPlat rest with
    | .error e => .error e
    | .ok p => .ok (.command .detach p)
  else .error .unknownMnemonic

/-- A word as a decimal numeral. -/
def writeWord (w : Word) : List Char :=
  Nat.toDigits 10 w.toNat

/-- The text form of a command (30_encoding.md R60). -/
def writeCommand : Instr → List Char
  | .clkper a => "CLKPER ".toList ++ writeWord a
  | .config a b => "CONFIG ".toList ++ writeWord a ++ ", ".toList ++ writeWord b
  | .capture a => "CAPTURE ".toList ++ writeWord a
  | .attach => "ATTACH".toList
  | .detach => "DETACH".toList

/-- The name of an error kind (60_exceptions.md R130). -/
def ErrorKind.text : ErrorKind → List Char
  | .invalidDutyCycle => "InvalidDutyCycle".toList
  | .captureUnavailable => "CaptureUnavailable".toList
  | .clockUnavailable => "ClockUnavailable".toList
  | .resourceUnavailable => "ResourceUnavailable".toList
  | .detachError => "DetachError".toList
  | .illegalCommand => "IllegalCommand".toList

/-- A response as `Ok`, `Ok(r0)`, `Ok(r0, r1)` or `Err(Kind)` (30_encoding.md section 7). -/
def writeResponse : Response → List Char
  | .ok .unit => "Ok".toList
  | .ok (.clockPeriod ns) => "Ok(".toList ++ writeWord ns ++ ")".toList
  | .ok (.measurement d p) => "Ok(".toList ++ writeWord d ++ ", ".toList ++ writeWord p ++ ")".toList
  | .err k => "Err(".toList ++ k.text ++ ")".toList

end Sys2Proof.Machine
end

