-- ==== Sys2Proof/Tests/Slice0.lean ====
section
/-! SUPPORT. Tests/Slice0.lean: small tests with expected results taken from 95_test_vectors.md, and for every
obligation with hypotheses a concrete state and operands that meet them. -/

namespace Sys2Proof.Tests

open Sys2Proof.Machine

/-! ### Helpers -/

/-- An unattached converter with the default layout (95_test_vectors.md, conventions). -/
def fresh (latch : Config.LatchMode) : State :=
  State.resetWith { layout := Config.defaultLayout, latch := latch } 3 3

/-- The attached converter of the vectors: base 0x40000000, length 0x1000. -/
def attachedWith (latch : Config.LatchMode) (clk up down : Word) : State :=
  { fresh latch with
    up := up, down := down, clkNs := some clk, lstate := .attached, base := some 0x40000000, regionLen := some 0x1000 }

/-- The attached converter with `LATCH = none`. -/
def attached (clk up down : Word) : State := attachedWith .none clk up down

/-- A detached converter. -/
def detached : State := { fresh .none with lstate := .detached }

/-- The platform that offers everything, with a clock of the given rate. -/
def goodPlat (rate : Word) : Plat :=
  { region := some (0x40000000, 0x1000), mapOk := true, clock := true, rate := some rate, detachFault := false }

/-- An unattached converter whose next `ATTACH` gets these answers. -/
def facing (plat : Plat) : State := { fresh .none with plat := plat }

/-- The outcome's responses, registers and events. -/
def seen (o : Host.Outcome State Fault Refusal) : Option (List Response × Word × Word × List Event) :=
  match o with
  | .next t => some (t.responses, t.up, t.down, t.trace)
  | .fault _ => none
  | .refused _ => none

/-- The outcome's response words, as numbers. -/
def words (o : Host.Outcome State Fault Refusal) : List Nat :=
  match o with
  | .next t => t.responses.map fun r => r.word.toNat
  | .fault _ => []
  | .refused _ => []

/-- The attached converter's invariant. -/
theorem attachedWith_inv (latch : Config.LatchMode) (up down : Word) : (attachedWith latch 10 up down).Inv :=
  ⟨⟨fun _ => ⟨10, 0x40000000, 0x1000, rfl, rfl, rfl, show LayoutOK Config.defaultLayout 0x1000 by decide⟩,
      fun h => absurd rfl h⟩,
    fun c hc => by cases hc; decide, rfl⟩

/-! ### WellFormed: each check refuses a term -/

theorem test_wf_a0_refuses_b : RawOperands.wf { format := .a0, a := 5, b := 1 } = false := by decide

theorem test_wf_zz_refuses_a : RawOperands.wf { format := .zz, a := 1, b := 0 } = false := by decide

theorem test_wf_zz_refuses_b : RawOperands.wf { format := .zz, a := 0, b := 1 } = false := by decide

theorem test_wf_ab_takes_every_value :
    RawOperands.wf { format := .ab, a := 0xFFFFFFFF, b := 0xFFFFFFFF } = true := by decide

/-! ### Decoding: the words of 95_test_vectors.md section 2.1 -/

theorem test_decode_clkper : decode 0x0105F5E10000000000 = .ok (.clkper 100_000_000) := by decide

theorem test_decode_config : decode 0x02000000050000000A = .ok (.config 5 10) := by decide

theorem test_decode_config_every_b : decode 0x0200000004FFFFFFFF = .ok (.config 4 4_294_967_295) := by decide

theorem test_decode_capture : decode 0x030000000000000000 = .ok (.capture 0) := by decide

theorem test_decode_capture_every_a : decode 0x03FFFFFFFF00000000 = .ok (.capture 4_294_967_295) := by decide

theorem test_decode_attach : decode 0x040000000000000000 = .ok .attach := by decide

theorem test_decode_detach : decode 0x050000000000000000 = .ok .detach := by decide

theorem test_decode_reserved :
    decode 0x000000000000000000 = .error (.reservedOpcode 0x00) ∧
    decode 0x060000000000000000 = .error (.reservedOpcode 0x06) ∧
    decode 0xFF0000000000000000 = .error (.reservedOpcode 0xFF) := by decide

theorem test_decode_nonzero_fields :
    decode 0x010000000500000001 = .error (.nonzeroB 0x01) ∧
    decode 0x030000000000000007 = .error (.nonzeroB 0x03) ∧
    decode 0x040000000100000000 = .error (.nonzeroA 0x04) ∧
    decode 0x050000000000000001 = .error (.nonzeroB 0x05) := by decide

theorem test_encode_words :
    encode (.clkper 100_000_000) = 0x0105F5E10000000000 ∧ encode (.config 5 10) = 0x02000000050000000A ∧
    encode (.capture 1000) = 0x03000003E800000000 ∧ encode .attach = 0x040000000000000000 ∧
    encode .detach = 0x050000000000000000 := by decide

theorem test_decodeTableWord :
    decodeTableWord 72 0x02000000050000000A = some (.config 5 10) ∧
    decodeTableWord 72 0x060000000000000000 = none := by decide

/-! ### One step each (95_test_vectors.md sections 2.3 to 2.7; response words as the vectors write them) -/

theorem test_clkper_333333334 : words (exec (.clkper 333_333_334) (fresh .none)) = [0x000000000200000000] := by decide

theorem test_clkper_zero : words (exec (.clkper 0) detached) = [0x030000000000000000] := by decide

theorem test_config_3_of_10 :
    seen (exec (.config 3 10) (attached 10 7 7)) =
      some ([.ok .unit], 3, 1, [.regWrite 0x0 3, .regWrite 0x4 1]) := by decide

/-- `LATCH 9, 9` between the two writes of `CONFIG 5, 10`. -/
theorem test_config_latched :
    seen (exec (.config 5 10) { attachedWith .betweenAccesses 10 0 0 with midLatches := [⟨9, 9⟩] }) =
      some ([.ok .unit], 9, 2, [.regWrite 0x0 2, .latch 9 9, .regWrite 0x4 2]) := by decide

theorem test_capture_20_1_4 : words (exec (.capture 1000) (attached 20 1 4)) = [0x000000001400000004] := by decide

/-- `LATCH 7, 3` between the two reads of `CAPTURE 0`. -/
theorem test_capture_latched :
    seen (exec (.capture 0) { attachedWith .betweenAccesses 10 2 2 with midLatches := [⟨7, 3⟩] }) =
      some ([.ok (.measurement 5 2)], 7, 3, [.regRead 0x0 2, .latch 7 3, .regRead 0x4 3]) := by decide

theorem test_attach_50MHz :
    seen (exec .attach (facing (goodPlat 50_000_000))) =
      some ([.ok .unit], 3, 3, [.mapRegion, .clkAcquire, .clkGetRate (some 50_000_000), .chanRegister]) := by decide

/-- Rate 0: the clock and then the mapping are given back. -/
theorem test_attach_rate_zero :
    seen (exec .attach (facing (goodPlat 0))) =
      some ([.err .clockUnavailable], 3, 3,
        [.mapRegion, .clkAcquire, .clkGetRate (some 0), .clkRelease, .unmapRegion]) := by decide

theorem test_detach_fault :
    words (exec .detach { attached 20 4 1 with plat := { Plat.silent with detachFault := true } }) =
      [0x050000000000000000] := by decide

theorem test_detach_refused_unattached : exec .detach (fresh .none) = .refused .detachUnattached := rfl

/-- A `CLKPER` as the first command after reset. -/
theorem test_fetch_first_clkper :
    words (step (State.reset.withFetchWord 72 0x0102FAF08000000000)) = [0x000000001400000000] := by decide

/-- Program P4: `LATCH 10, 1` between two commands. -/
theorem test_latch_between :
    seen (step { attachedWith .betweenCommands 10 2 2 with pending := [.latch ⟨10, 1⟩] }) =
      some ([], 10, 1, [.latch 10 1]) := by decide

/-- The last two rows of the port's table: refused beside the nearest accepted access. -/
theorem test_port_offsets :
    (attached 10 1 2).portAddress 0x8 = .error (.refused (.undefinedOffset 0x8)) ∧
    detached.portAddress 0x0 = .error (.refused .portNotAttached) ∧
    (attached 10 1 2).portAddress 0x4 = .ok 0x40000004 := by decide

/-! ### Text (30_encoding.md R60; lines of the programs P1 to P4) -/

theorem test_text_config : readLine "CONFIG 5, 0xA".toList = .ok (.command (.config 5 10) none) := by decide

theorem test_text_clkper : readLine "CLKPER 50_000_000".toList = .ok (.command (.clkper 50_000_000) none) := by decide

theorem test_text_attach :
    readLine ("ATTACH ".toList ++ [openBrace] ++
      "region=(0x40000000, 0x1000), map_ok, clock, rate=50_000_000".toList ++ [closeBrace]) =
      .ok (.command .attach (some (goodPlat 50_000_000))) := by decide

theorem test_text_latch : readLine "LATCH 10, 1".toList = .ok (.latch ⟨10, 1⟩) := by decide

theorem test_text_response : writeResponse (.ok (.measurement 5 2)) = "Ok(5, 2)".toList := by decide

/-! ### Witnesses: each obligation's hypotheses met -/

theorem witness_DecodeAfterEncode : (Instr.config 5 10).wf = true := by decide

theorem witness_EncodeAfterDecode : decode 0x03000003E800000000 = .ok (.capture 1000) := by decide

theorem witness_StepRunsDecoded :
    ({ attached 10 2 2 with pending := [.command 0x030000000000000000 Plat.silent []] }).pending =
      .command 0x030000000000000000 Plat.silent [] :: [] ∧
    decode 0x030000000000000000 = .ok (.capture 0) ∧ (Instr.capture 0).wf = true := by decide

theorem witness_IllegalWordStep :
    ({ detached with pending := [.command 0x030000000000000007 Plat.silent []] }).pending =
      .command 0x030000000000000007 Plat.silent [] :: [] ∧
    decode 0x030000000000000007 = .error (.nonzeroB 0x03) := by decide

theorem witness_IdleStepWaits : State.reset.pending = [] := rfl

theorem witness_LatchBetweenCommandsStep :
    (({ attachedWith .betweenCommands 10 2 2 with pending := [.latch ⟨10, 1⟩] }).pending = .latch ⟨10, 1⟩ :: [] ∧
      (attachedWith .betweenCommands 10 2 2).params.latch ≠ .none) ∧
    (({ attached 10 2 2 with pending := [.latch ⟨10, 1⟩] }).pending = .latch ⟨10, 1⟩ :: [] ∧
      (attached 10 2 2).params.latch = .none) := by decide

theorem witness_UdivIsFloorDivision :
    (3 : Word) ≠ 0 ∧ 3 * (3 : Word).toNat ≤ (10 : Word).toNat ∧ (10 : Word).toNat < (3 + 1) * (3 : Word).toNat := by
  decide

theorem witness_ClockPeriodFormula : (1 : Word) ≠ 0 ∧ (0xFFFFFFFF : Word) ≠ 0 := by decide

/-- The rates on both sides of 1 GHz. -/
theorem witness_ClockPeriodRange :
    (clockPeriodNs 1_000_000_000 = .ok 1 ∧ (1_000_000_000 : Word).toNat ≤ 1_000_000_000) ∧
    (clockPeriodNs 1_000_000_001 = .ok 0 ∧ 1_000_000_000 < (1_000_000_001 : Word).toNat) := by decide

theorem witness_ClkperCompletes : (1 : Word) ≠ 0 ∧ (0 : Word) = 0 := by decide

/-- The smallest and the largest core duty of a clock period of 10. -/
theorem witness_ConfigCoreResult :
    (attached 10 0 7).lstate = .attached ∧ (attached 10 0 7).clkNs = some 10 ∧
    (attached 10 0 7).base = some 0x40000000 ∧
    (attached 10 0 7).params.layout.offUp ≠ (attached 10 0 7).params.layout.offDown ∧
    (attached 10 0 7).admittedMid = [] ∧
    (0 < (1 : Word).toNat ∧ (1 : Word).toNat < (10 : Word).toNat) ∧
    (0 < (9 : Word).toNat ∧ (9 : Word).toNat < (10 : Word).toNat) := by decide

/-- One latch admitted, and a duty of the core domain beside one above the clock period. -/
theorem witness_ConfigResultWithLatches :
    let s := { attachedWith .betweenAccesses 10 0 0 with midLatches := [⟨9, 9⟩] }
    s.lstate = .attached ∧ s.clkNs = some 10 ∧ s.base = some 0x40000000 ∧
      s.params.layout.offUp ≠ s.params.layout.offDown ∧ s.admittedMid = [⟨9, 9⟩] ∧
      ((5 : Word) ≠ 0 ∧ (5 : Word) ≠ 10) ∧ ((11 : Word) ≠ 0 ∧ (11 : Word) ≠ 10) := by decide

/-- A duty for each failure case, and one on each side of the clock period that does not fail. -/
theorem witness_ConfigFailsExactly :
    (attached 10 0 7).lstate = .attached ∧ (attached 10 0 7).clkNs = some 10 ∧
    (attached 10 0 7).base = some 0x40000000 ∧
    (attached 10 0 7).params.layout.offUp ≠ (attached 10 0 7).params.layout.offDown ∧
    ((0 : Word) = 0 ∨ (0 : Word) = 10) ∧ ((10 : Word) = 0 ∨ (10 : Word) = 10) ∧
    ¬ ((9 : Word) = 0 ∨ (9 : Word) = 10) ∧ ¬ ((11 : Word) = 0 ∨ (11 : Word) = 10) := by decide

theorem witness_ConfigFailureWritesNothing :
    (attached 10 0 7).lstate = .attached ∧ (attached 10 0 7).clkNs = some 10 ∧
    ((0 : Word) = 0 ∨ (0 : Word) = 10) ∧ ((10 : Word) = 0 ∨ (10 : Word) = 10) := by decide

/-- A duty below half, at half and above half of the clock period. -/
theorem witness_ConfigCoreCounts :
    (attached 10 0 7).clkNs = some 10 ∧
    (attached 10 0 7).params.layout.offUp ≠ (attached 10 0 7).params.layout.offDown ∧
    (attached 10 0 7).admittedMid = [] ∧
    (0 < (1 : Word).toNat ∧ (1 : Word).toNat < (10 : Word).toNat) ∧
    (0 < (5 : Word).toNat ∧ (5 : Word).toNat < (10 : Word).toNat) ∧
    (0 < (9 : Word).toNat ∧ (9 : Word).toNat < (10 : Word).toNat) ∧
    (∃ t, exec (.config 1 0) (attached 10 0 7) = .next t) ∧ (∃ t, exec (.config 5 0) (attached 10 0 7) = .next t) ∧
    (∃ t, exec (.config 9 0) (attached 10 0 7) = .next t) :=
  ⟨rfl, by decide, rfl, by decide, by decide, by decide, ⟨_, rfl⟩, ⟨_, rfl⟩, ⟨_, rfl⟩⟩

theorem witness_ConfigExtendedDomain :
    (attached 10 0 7).lstate = .attached ∧ (attached 10 0 7).clkNs = some 10 ∧
    (attached 10 0 7).base = some 0x40000000 ∧
    (attached 10 0 7).params.layout.offUp ≠ (attached 10 0 7).params.layout.offDown ∧
    (attached 10 0 7).admittedMid = [] ∧ (10 : Word).toNat < (11 : Word).toNat ∧
    (10 : Word).toNat < (0xFFFFFFFF : Word).toNat := by decide

/-- The smallest count, and the largest sum that does not wrap. -/
theorem witness_CaptureCoreResult :
    ∀ s ∈ [attached 10 1 0, attached 10 1 0xFFFFFFFE],
      s.lstate = .attached ∧ s.clkNs = some 10 ∧ s.base = some 0x40000000 ∧
      s.params.layout.offUp ≠ s.params.layout.offDown ∧ s.admittedMid = [] ∧ s.up ≠ 0 ∧
      s.up.toNat + s.down.toNat < 2 ^ 32 := by decide

/-- A zero `UP`, both zero, and neither. -/
theorem witness_CaptureFailsExactly :
    (∀ s ∈ [attached 10 0 5, attached 10 0 0, attached 10 1 0],
      s.lstate = .attached ∧ s.clkNs = some 10 ∧ s.base = some 0x40000000 ∧
      s.params.layout.offUp ≠ s.params.layout.offDown ∧ s.admittedMid = [] ∧ s.up.toNat + s.down.toNat < 2 ^ 32) ∧
    (attached 10 0 5).up.toNat = 0 ∧ (attached 10 0 0).up.toNat + (attached 10 0 0).down.toNat = 0 ∧
    ¬ ((attached 10 1 0).up.toNat = 0 ∨ (attached 10 1 0).up.toNat + (attached 10 1 0).down.toNat = 0) := by decide

theorem witness_CaptureResultWithLatches :
    let s := { attachedWith .betweenAccesses 10 2 2 with midLatches := [⟨7, 3⟩] }
    s.lstate = .attached ∧ s.clkNs = some 10 ∧ s.base = some 0x40000000 ∧
      s.params.layout.offUp ≠ s.params.layout.offDown ∧ s.admittedMid = [⟨7, 3⟩] := by decide

/-- A capture with a nonzero result, one with a zero period, and one with a clock period of 0; the states before have
given no response. -/
theorem witness_CaptureRanges :
    (∀ s ∈ [attached 10 1 9, attached 10 10 1, attached 0 3 4],
      s.params.layout.offUp ≠ s.params.layout.offDown ∧ s.admittedMid = [] ∧ s.up.toNat + s.down.toNat < 2 ^ 32) ∧
    (attached 10 1 9).clkNs = some 10 ∧ (attached 10 10 1).clkNs = some 10 ∧ (attached 0 3 4).clkNs = some 0 ∧
    (∃ t, exec (.capture 0) (attached 10 1 9) = .next t ∧ t.responses = [.ok (.measurement 10 1)]) ∧
    (∃ t, exec (.capture 0) (attached 10 10 1) = .next t ∧ t.responses = [.ok (.measurement 1 0)]) ∧
    (∃ t, exec (.capture 0) (attached 0 3 4) = .next t ∧ t.responses = [.ok (.measurement 0 0)]) :=
  ⟨by decide, rfl, rfl, rfl, ⟨_, rfl, rfl⟩, ⟨_, rfl, rfl⟩, ⟨_, rfl, rfl⟩⟩

theorem witness_CaptureAfterConfig :
    (attached 10 0 7).clkNs = some 10 ∧ (10 : Word).toNat ≤ 1_000_000_000 ∧
    (attached 10 0 7).params.layout.offUp ≠ (attached 10 0 7).params.layout.offDown ∧
    (attached 10 0 7).admittedMid = [] ∧ 0 < (5 : Word).toNat ∧ (5 : Word).toNat < (10 : Word).toNat ∧
    ∃ t, exec (.config 5 10) (attached 10 0 7) = .next t :=
  ⟨rfl, by decide, by decide, rfl, by decide, by decide, ⟨_, rfl⟩⟩

/-- Also with the shortest region that the default layout allows. -/
theorem witness_AttachCompletes :
    ∀ n ∈ [0x1000, 8],
      let s := facing { goodPlat 50_000_000 with region := some (0x40000000, n) }
      s.lstate = .unattached ∧ s.plat.region = some (0x40000000, n) ∧ s.plat.mapOk = true ∧
        s.params.layout.offUp % 4 = 0 ∧ s.params.layout.offDown % 4 = 0 ∧ s.params.layout.offUp + 4 ≤ n ∧
        s.params.layout.offDown + 4 ≤ n ∧ s.params.layout.offUp ≠ s.params.layout.offDown ∧ s.plat.clock = true ∧
        s.plat.rate = some 50_000_000 ∧ (50_000_000 : Word) ≠ 0 := by decide

/-- No region, and a region that does not map. -/
theorem witness_AttachNeedsRegion :
    ((facing Plat.silent).lstate = .unattached ∧ (facing Plat.silent).plat.region = none) ∧
    ((facing { goodPlat 3 with mapOk := false }).lstate = .unattached ∧
      (facing { goodPlat 3 with mapOk := false }).plat.mapOk = false) := by decide

/-- A region one byte too short, the misaligned and the aliased layout of the vectors, and the shortest region
accepted. -/
theorem witness_AttachChecksLayout :
    (let s := facing { goodPlat 3 with region := some (0x40000000, 7) }
     s.lstate = .unattached ∧ s.plat.region = some (0x40000000, 7) ∧ s.plat.mapOk = true ∧
       7 < s.params.layout.offDown + 4 ∧ s.params.layout = Config.defaultLayout) ∧
    (let s := { facing (goodPlat 3) with params := { layout := { offUp := 0, offDown := 6 }, latch := .none } }
     s.lstate = .unattached ∧ s.plat.region = some (0x40000000, 0x1000) ∧ s.plat.mapOk = true ∧
       s.params.layout.offDown % 4 ≠ 0) ∧
    (let s := { facing (goodPlat 3) with params := { layout := { offUp := 0, offDown := 0 }, latch := .none } }
     s.lstate = .unattached ∧ s.plat.region = some (0x40000000, 0x1000) ∧ s.plat.mapOk = true ∧
       s.params.layout.offUp = s.params.layout.offDown) ∧
    (let s := facing { goodPlat 3 with region := some (0x40000000, 8) }
     s.lstate = .unattached ∧ s.plat.region = some (0x40000000, 8) ∧ s.plat.mapOk = true ∧
       s.params.layout = Config.defaultLayout) := by decide

/-- No clock, no rate, rate 0, and a failed `ATTACH` as the last clause asks for. -/
theorem witness_AttachRollsBack :
    (∀ s ∈ [facing { goodPlat 3 with clock := false }, facing { goodPlat 3 with rate := none }, facing (goodPlat 0)],
      s.lstate = .unattached ∧ s.plat.region = some (0x40000000, 0x1000) ∧ s.plat.mapOk = true ∧
        LayoutOK s.params.layout 0x1000) ∧
    (facing { goodPlat 3 with clock := false }).plat.clock = false ∧
    ((facing { goodPlat 3 with rate := none }).plat.clock = true ∧
      (facing { goodPlat 3 with rate := none }).plat.rate = none) ∧
    ((facing (goodPlat 0)).plat.clock = true ∧ (facing (goodPlat 0)).plat.rate = some 0) ∧
    (∃ t, exec .attach (facing (goodPlat 0)) = .next t ∧ t.responses = [.err .clockUnavailable]) :=
  ⟨by decide, by decide, by decide, by decide, ⟨_, rfl, by decide⟩⟩

/-- A successful and a failed `ATTACH`. -/
theorem witness_AttachAllOrNothing :
    (∃ t, exec .attach (facing (goodPlat 3)) = .next t) ∧ (∃ t, exec .attach (facing Plat.silent) = .next t) :=
  ⟨⟨_, rfl⟩, ⟨_, rfl⟩⟩

/-- The vectors' 2 GHz clock, and the smallest rate above 1 GHz: for the clause of a mapped region and for the clause of
an `ATTACH` that attached. -/
theorem witness_AttachAcceptsZeroPeriod :
    ((facing (goodPlat 2_000_000_000)).plat.rate = some 2_000_000_000 ∧
      1_000_000_000 < (2_000_000_000 : Word).toNat) ∧
    ((facing (goodPlat 1_000_000_001)).plat.rate = some 1_000_000_001 ∧
      1_000_000_000 < (1_000_000_001 : Word).toNat) ∧
    (∀ s ∈ [facing (goodPlat 2_000_000_000), facing (goodPlat 1_000_000_001)],
      s.lstate = .unattached ∧ s.plat.region = some (0x40000000, 0x1000) ∧ s.plat.mapOk = true ∧
        LayoutOK s.params.layout 0x1000 ∧ s.plat.clock = true) ∧
    (∃ t, exec .attach (facing (goodPlat 2_000_000_000)) = .next t ∧ t.lstate = .attached) ∧
    (∃ t, exec .attach (facing (goodPlat 1_000_000_001)) = .next t ∧ t.lstate = .attached) :=
  ⟨by decide, by decide, by decide, ⟨_, rfl, by decide⟩, ⟨_, rfl, by decide⟩⟩

theorem witness_DetachCompletes : (attached 20 4 1).lstate = .attached := rfl

theorem witness_DetachOrder : ∃ t, exec .detach (attached 20 4 1) = .next t := ⟨_, rfl⟩

theorem witness_DoubleDetachRefused : ∃ t, exec .detach (attached 20 4 1) = .next t := ⟨_, rfl⟩

/-- The invariant holds while unattached, attached and detached. -/
theorem witness_CommandTable : (fresh .none).Inv ∧ (attached 10 2 2).Inv ∧ detached.Inv :=
  ⟨⟨⟨nofun, fun _ => ⟨rfl, rfl, rfl⟩⟩, nofun, rfl⟩, attachedWith_inv .none 2 2,
    ⟨⟨nofun, fun _ => ⟨rfl, rfl, rfl⟩⟩, nofun, rfl⟩⟩

theorem witness_WrongStateRefused :
    (fresh .none).lstate = .unattached ∧ (attached 10 2 2).lstate = .attached ∧ detached.lstate = .detached := by
  decide

/-- A step that keeps the lifecycle state, one that attaches and one that detaches. -/
theorem witness_LifecycleTransitions :
    (∃ t, step (detached.withFetchWord 72 0x010000000700000000) = .next t ∧ t.lstate = detached.lstate) ∧
    (∃ t, step ((facing (goodPlat 3)).withFetchWord 72 0x040000000000000000) = .next t ∧ t.lstate = .attached) ∧
    (∃ t, step ((attached 10 2 2).withFetchWord 72 0x050000000000000000) = .next t ∧ t.lstate = .detached) :=
  ⟨⟨_, rfl, by decide⟩, ⟨_, rfl, by decide⟩, ⟨_, rfl, by decide⟩⟩

theorem witness_DetachedIsTerminal :
    detached.lstate = .detached ∧ ∃ t, Host.Core.run Sys2Proof.core 3 detached = .next t :=
  ⟨rfl, ⟨_, rfl⟩⟩

/-- One command each. -/
theorem witness_CommandRespondsOnce :
    (∃ t, exec (.clkper 7) detached = .next t) ∧ (∃ t, exec (.config 5 10) (attached 10 0 7) = .next t) ∧
    (∃ t, exec (.capture 0) (attached 10 2 2) = .next t) ∧ (∃ t, exec .attach (facing (goodPlat 3)) = .next t) ∧
    (∃ t, exec .detach (attached 10 2 2) = .next t) :=
  ⟨⟨_, rfl⟩, ⟨_, rfl⟩, ⟨_, rfl⟩, ⟨_, rfl⟩, ⟨_, rfl⟩⟩

theorem witness_ControlStateWriters :
    (∃ t, exec (.config 5 10) (attached 10 0 7) = .next t) ∧ Instr.config 5 10 ≠ .attach ∧
    Instr.config 5 10 ≠ .detach :=
  ⟨⟨_, rfl⟩, nofun, nofun⟩

/-- A `CAPTURE` with `LATCH = none`. -/
theorem witness_RegistersChangeOnlyByConfig :
    let s := (attached 10 2 2).withFetchWord 72 0x030000000000000000
    s.params.latch = .none ∧ (∃ t, step s = .next t) ∧
      ∀ (cw : CommandWord) (plat : Plat) (mid : List Latch) (rest : List HostInput) (d p : Word),
        s.pending = .command cw plat mid :: rest → decode cw ≠ .ok (.config d p) := by
  refine ⟨rfl, ⟨_, rfl⟩, ?_⟩
  intro cw plat mid rest d p h
  have hw : tableWord 72 0x030000000000000000 = cw := by injection h with h; injection h
  subst hw
  have hd : decode (tableWord 72 0x030000000000000000) = .ok (.capture 0) := by decide
  rw [hd]
  nofun

/-- A command that has a step, one that is refused, and the fault of a state that no run reaches. -/
theorem witness_RecordsAreNotRead :
    (∃ t, exec (.capture 0) (attached 10 2 2) = .next t) ∧
    exec (.capture 0) detached = .refused .captureDetached ∧
    exec (.capture 0) { attached 10 2 2 with clkNs := none } = .fault .noClockPeriod :=
  ⟨⟨_, rfl⟩, rfl, rfl⟩

/-- One response of every error kind a command raises; the states before have given none. -/
theorem witness_ErrorKindsByCommand :
    (∃ t, exec (.config 10 10) (attached 10 0 7) = .next t ∧ t.responses = [.err .invalidDutyCycle]) ∧
    (∃ t, exec (.capture 0) (attached 10 0 7) = .next t ∧ t.responses = [.err .captureUnavailable]) ∧
    (∃ t, exec (.clkper 0) detached = .next t ∧ t.responses = [.err .clockUnavailable]) ∧
    (∃ t, exec .attach (facing Plat.silent) = .next t ∧ t.responses = [.err .resourceUnavailable]) ∧
    (∃ t, exec .detach { attached 10 2 2 with plat := { Plat.silent with detachFault := true } } = .next t ∧
      t.responses = [.err .detachError]) :=
  ⟨⟨_, rfl, rfl⟩, ⟨_, rfl, rfl⟩, ⟨_, rfl, rfl⟩, ⟨_, rfl, rfl⟩, ⟨_, rfl, rfl⟩⟩

/-- A defined read while `Attached`, an address between the registers, and the two other lifecycle states as runs reach
them, with no mapping. -/
theorem witness_MemReadDefinedExactly :
    (attached 10 2 3).lstate = .attached ∧ (attached 10 2 3).base = some 0x40000000 ∧
    (attached 10 2 3).params.layout.offUp ≠ (attached 10 2 3).params.layout.offDown ∧
    0x40000001 ≠ 0x40000000 + (attached 10 2 3).params.layout.offUp ∧
    0x40000001 ≠ 0x40000000 + (attached 10 2 3).params.layout.offDown ∧
    (fresh .none).lstate ≠ .attached ∧ detached.lstate ≠ .attached := by decide

/-- The addresses of both registers, an address between them, and the two other lifecycle states as runs reach them. -/
theorem witness_MemWriteReplacesRegister :
    (attached 10 2 3).lstate = .attached ∧ (attached 10 2 3).base = some 0x40000000 ∧
    (attached 10 2 3).params.layout.offUp ≠ (attached 10 2 3).params.layout.offDown ∧
    0x40000000 = 0x40000000 + (attached 10 2 3).params.layout.offUp ∧
    0x40000004 = 0x40000000 + (attached 10 2 3).params.layout.offDown ∧
    0x40000001 ≠ 0x40000000 + (attached 10 2 3).params.layout.offUp ∧
    0x40000001 ≠ 0x40000000 + (attached 10 2 3).params.layout.offDown ∧
    (fresh .none).lstate ≠ .attached ∧ detached.lstate ≠ .attached := by decide

/-- Both registers' offsets while `Attached`, the offset between them and the first one after them, and the two other
lifecycle states as runs reach them. -/
theorem witness_RegisterPortContract :
    (attached 10 2 3).lstate = .attached ∧ (attached 10 2 3).base = some 0x40000000 ∧
    (attached 10 2 3).params.layout.offUp ≠ (attached 10 2 3).params.layout.offDown ∧
    (∀ off ∈ [1, 8], off ≠ (attached 10 2 3).params.layout.offUp ∧ off ≠ (attached 10 2 3).params.layout.offDown) ∧
    (fresh .none).lstate ≠ .attached ∧ detached.lstate ≠ .attached := by decide

theorem witness_PortReadAfterWrites :
    ∃ t t', (attached 10 2 3).regWrite32 0x0 0xFFFFFFFF = .ok t ∧ 0x4 ≠ 0x0 ∧ t.regWrite32 0x4 0 = .ok t' :=
  ⟨_, _, rfl, by decide, rfl⟩

theorem witness_CommandsUsePortLegally : (attached 10 2 2).Inv := attachedWith_inv .none 2 2

theorem witness_StepKeepsInvariant :
    let s := (attached 10 2 2).withFetchWord 72 0x050000000000000000
    s.Inv ∧ ∃ t, step s = .next t :=
  ⟨attachedWith_inv .none 2 2, ⟨_, rfl⟩⟩

theorem witness_StepKeepsResourcesBalanced :
    let s := (facing (goodPlat 3)).withFetchWord 72 0x040000000000000000
    s.ResourcesBalanced ∧ ∃ t, step s = .next t :=
  ⟨by refine ⟨?_, ?_, ?_, ?_, ?_⟩ <;> decide, ⟨_, rfl⟩⟩

theorem witness_RunsNeverFault : (attached 10 2 2).Inv := attachedWith_inv .none 2 2

end Sys2Proof.Tests
end

/-! ### The arithmetic of 00_scope.md -/

namespace Sys2Proof.Machine

/-- `udiv` on values, with no reduction modulo `2^32` left: the quotient fits (00_scope.md R6). -/
@[simp] theorem udiv_toNat (a b : Word) (h : b ≠ 0) : (udiv a b h).toNat = a.toNat / b.toNat :=
  BitVec.toNat_udiv

/-- Settles O12: on values `udiv` is the quotient of natural numbers, and the divisor is positive. -/
theorem udivIsFloorDivision : Obligations.UdivIsFloorDivision := by
  intro a b h
  have hb : 0 < b.toNat := toNat_pos h
  rw [udiv_toNat]
  refine ⟨Nat.div_mul_le_self _ _, Nat.lt_mul_of_div_lt (Nat.lt_succ_self _) hb, Nat.div_le_self _ _, ?unique⟩
  case unique =>
    intro q hlow hhigh
    exact (Nat.div_eq_of_lt_le hlow hhigh).symm

end Sys2Proof.Machine

/-! ### The memory of 20_memory.md -/

namespace Sys2Proof.Machine

/-- The content of a count register. -/
def State.count (s : State) : CountReg → Word
  | .up => s.up
  | .down => s.down

/-- The state with the content of one count register replaced. -/
def State.setCount (s : State) (v : Word) : CountReg → State
  | .up => { s with up := v }
  | .down => { s with down := v }

/-- The offset of a count register in the mapped region. -/
def State.offsetOf (s : State) : CountReg → Nat
  | .up => s.params.layout.offUp
  | .down => s.params.layout.offDown

@[simp] theorem State.count_setCount_same (s : State) (v : Word) (r : CountReg) : (s.setCount v r).count r = v := by
  cases r <;> rfl

theorem State.count_setCount_of_ne (s : State) (v : Word) {r r' : CountReg} (h : r' ≠ r) :
    (s.setCount v r).count r' = s.count r' := by
  match r, r' with
  | .up, .down => rfl
  | .down, .up => rfl
  | .up, .up => exact absurd rfl h
  | .down, .down => exact absurd rfl h

/-- Replacing a count register touches no other field. -/
theorem State.setCount_frame (s : State) (v : Word) (r : CountReg) :
    s.setCount v r = { s with up := (s.setCount v r).up, down := (s.setCount v r).down } := by
  cases r <;> rfl

/-- Which register an address names does not depend on what the registers hold. -/
@[simp] theorem State.regAt_setCount (s : State) (v : Word) (r : CountReg) (a : Nat) :
    (s.setCount v r).regAt a = s.regAt a := by
  cases r <;> rfl

theorem State.memRead_eq (s : State) (a : Nat) : s.memRead a = (s.regAt a).map s.count := by
  unfold State.memRead
  rcases s.regAt a with _ | _ | _ <;> rfl

theorem State.memWrite_eq (s : State) (a : Nat) (v : Word) : s.memWrite a v = (s.regAt a).map (s.setCount v) := by
  unfold State.memWrite
  rcases s.regAt a with _ | _ | _ <;> rfl

/-- With distinct offsets each register stands at its own offset (R31). -/
theorem State.regAt_offsetOf {s : State} {b : Nat} (hl : s.lstate = .attached) (hb : s.base = some b)
    (hd : s.params.layout.offUp ≠ s.params.layout.offDown) (r : CountReg) : s.regAt (b + s.offsetOf r) = .ok r := by
  rw [State.regAt_add _ hl hb]
  cases r with
  | up => exact if_pos rfl
  | down => exact (if_neg hd.symm).trans (if_pos rfl)

/-- No address but the two registers' is defined (R33). -/
theorem State.regAt_of_ne {s : State} {a b : Nat} (hl : s.lstate = .attached) (hb : s.base = some b)
    (hu : a ≠ b + s.params.layout.offUp) (hd : a ≠ b + s.params.layout.offDown) :
    s.regAt a = .error (.refused (.undefinedAddress a)) := by
  simp [State.regAt, hl, hb, hu, hd]

/-- No address is defined outside `Attached` (R33). -/
theorem State.regAt_of_not_attached {s : State} (a : Nat) (hl : s.lstate ≠ .attached) :
    s.regAt a = .error (.refused .portNotAttached) := by
  rcases s.regAt_cases a with ⟨_, h⟩ | ⟨hl', _⟩ | ⟨_, hl', _⟩ | ⟨_, hl', _⟩ | ⟨_, hl', _⟩
  · exact h
  all_goals exact absurd hl' hl

/-- An address that names a register is that register's address. -/
theorem State.address_of_regAt {s : State} {a : Nat} {r : CountReg} (h : s.regAt a = .ok r) :
    ∃ b, s.base = some b ∧ a = b + s.offsetOf r := by
  rcases s.regAt_cases a with ⟨_, h'⟩ | ⟨_, _, h'⟩ | ⟨b, _, hb, ha, h'⟩ |
      ⟨b, _, hb, _, ha, h'⟩ | ⟨_, _, _, _, _, h'⟩ <;>
    cases h.symm.trans h'
  · exact ⟨b, hb, ha⟩
  · exact ⟨b, hb, ha⟩

/-- No two addresses name the same register. -/
theorem State.regAt_injective {s : State} {a a' : Nat} {r : CountReg} (h : s.regAt a = .ok r)
    (h' : s.regAt a' = .ok r) : a' = a := by
  obtain ⟨b, hb, rfl⟩ := State.address_of_regAt h
  obtain ⟨b', hb', rfl⟩ := State.address_of_regAt h'
  rw [Option.some.inj (hb'.symm.trans hb)]

/-- A read of an address that does not name the replaced register gives what it gave before. -/
theorem State.memRead_setCount_of_ne {s : State} {a a' : Nat} {r : CountReg} (v : Word) (h : s.regAt a = .ok r)
    (hne : a' ≠ a) : (s.setCount v r).memRead a' = s.memRead a' := by
  rw [State.memRead_eq, State.memRead_eq, State.regAt_setCount]
  rcases h' : s.regAt a' with e | r'
  · rfl
  · have hr : r' ≠ r := fun hr => hne (State.regAt_injective h (hr ▸ h'))
    exact congrArg Except.ok (s.count_setCount_of_ne v hr)

/-- A defined write, and every read after it. -/
theorem State.memWrite_of_regAt {s : State} {a : Nat} {r : CountReg} (v : Word) (h : s.regAt a = .ok r) :
    ∃ t, s.memWrite a v = .ok t ∧ t.memRead a = .ok v ∧ (∀ a', a' ≠ a → t.memRead a' = s.memRead a') ∧
      t = { s with up := t.up, down := t.down } := by
  refine ⟨s.setCount v r, ?write, ?same, fun _ => State.memRead_setCount_of_ne v h, s.setCount_frame v r⟩
  case write => rw [State.memWrite_eq, h, Except.map]
  case same => rw [State.memRead_eq, State.regAt_setCount, h, Except.map, State.count_setCount_same]

/-- Settles O48: an address names at most one register, and distinct addresses name distinct ones, so a write is seen at
its own address only. -/
theorem memWriteReplacesRegister : Obligations.MemWriteReplacesRegister := by
  intro s a v
  refine ⟨?defined, ?undefinedAddress, ?notAttached⟩
  case defined =>
    rintro b hl hb hd (rfl | rfl)
    · exact State.memWrite_of_regAt v (State.regAt_offsetOf hl hb hd .up)
    · exact State.memWrite_of_regAt v (State.regAt_offsetOf hl hb hd .down)
  case undefinedAddress =>
    intro b hl hb hu hd
    rw [State.memWrite_eq, State.regAt_of_ne hl hb hu hd, Except.map]
  case notAttached =>
    intro hl
    rw [State.memWrite_eq, State.regAt_of_not_attached a hl, Except.map]

/-- Settles O47: a read gives the content of the register its address names, and fails where it names none. -/
theorem memReadDefinedExactly : Obligations.MemReadDefinedExactly := by
  intro s a
  refine ⟨?defined, ?undefinedAddress, ?notAttached⟩
  case defined =>
    intro b hl hb hd
    have read (r : CountReg) : s.memRead (b + s.offsetOf r) = .ok (s.count r) := by
      rw [State.memRead_eq, State.regAt_offsetOf hl hb hd, Except.map]
    exact ⟨read .up, read .down⟩
  case undefinedAddress =>
    intro b hl hb hu hd
    rw [State.memRead_eq, State.regAt_of_ne hl hb hu hd, Except.map]
  case notAttached =>
    intro hl
    rw [State.memRead_eq, State.regAt_of_not_attached a hl, Except.map]

end Sys2Proof.Machine

/-! ### The clock divider of 41_clock_model.md -/

namespace Sys2Proof.Machine

/-- `udiv` as the word of the quotient of natural numbers. -/
theorem udiv_eq_ofNat (a b : Word) (h : b ≠ 0) : udiv a b h = .ofNat 32 (a.toNat / b.toNat) := by
  rw [← udiv_toNat a b h, BitVec.ofNat_toNat, BitVec.setWidth_eq]

/-- A rate that is not 0 is divided into `NS_PER_S`; nothing else decides the period (R81). -/
theorem clockPeriodNs_of_ne_zero {r : Word} (h : r ≠ 0) : clockPeriodNs r = .ok (udiv nsPerS r h) :=
  dif_neg h

/-- Settles O13: the period is `udiv(NS_PER_S, r)`, read as a quotient of natural numbers. -/
theorem clockPeriodFormula : Obligations.ClockPeriodFormula := by
  intro r hr
  rw [clockPeriodNs_of_ne_zero hr, udiv_eq_ofNat, nsPerS_toNat]

end Sys2Proof.Machine

/-! ### The scaler of 42_config.md -/

namespace Sys2Proof.Machine

/-- The dispatcher hands a `CONFIG` with both its operands to the scaler. -/
theorem exec_config (d p : Word) (s : State) : exec (.config d p) s = execConfig d p s :=
  rfl

/-- The scaler's failure tests, counts and response are terms in `duty_ns` and the state alone: at two values of
`period_ns` it is the same function of the state (R95). -/
theorem execConfig_period_irrelevant (d p p' : Word) : execConfig d p = execConfig d p' :=
  rfl

/-- Settles O20: `period_ns` reaches the scaler, and the scaler does not read it. -/
theorem configIgnoresPeriod : Obligations.ConfigIgnoresPeriod := by
  intro s d p p'
  calc exec (.config d p) s
    _ = execConfig d p s := exec_config d p s
    _ = execConfig d p' s := by rw [execConfig_period_irrelevant d p p']
    _ = exec (.config d p') s := (exec_config d p' s).symm

end Sys2Proof.Machine

/-! ### The inverter of 43_capture.md -/

namespace Sys2Proof.Machine

/-- The dispatcher hands a `CAPTURE` with its operand to the inverter. -/
theorem exec_capture (timeout : Word) (s : State) : exec (.capture timeout) s = execCapture timeout s :=
  rfl

/-- The inverter's clock check, read pair, failure test and response are terms in the state alone: it is one function of
the state, whatever `timeout` is (R104). -/
theorem execCapture_timeout_irrelevant (x y : Word) : execCapture x = execCapture y :=
  rfl

/-- Settles O26: `timeout` reaches the inverter, and the inverter does not read it. -/
theorem captureIgnoresTimeout : Obligations.CaptureIgnoresTimeout := by
  intro s x y
  calc exec (.capture x) s
    _ = execCapture x s := exec_capture x s
    _ = execCapture y s := by rw [execCapture_timeout_irrelevant x y]
    _ = exec (.capture y) s := (exec_capture y s).symm

end Sys2Proof.Machine

/-! ### The lifecycle of 44_lifecycle.md -/

namespace Sys2Proof.Machine

/-- In `Unattached` the dispatcher runs the attach sequence (R110). -/
theorem exec_attach_of_unattached {s : State} (hl : s.lstate = .unattached) :
    exec .attach s = .next s.attachSequence := by
  simp only [exec, execAttach, hl]

/-- In `Detached` a `DETACH` is the double detach (R125). -/
theorem exec_detach_of_detached {s : State} (hl : s.lstate = .detached) :
    exec .detach s = .refused .doubleDetach := by
  simp only [exec, execDetach, hl]

/-- No region is mapped if none is described or mapping fails (R112). -/
theorem State.mappable_eq_none_of_no_region {s : State} (h : s.plat.region = none ∨ s.plat.mapOk = false) :
    s.mappable = none := by
  rw [Option.eq_none_iff_forall_ne_some]
  rintro ⟨b, n⟩ hm
  obtain ⟨hregion, hmap, _⟩ := State.mappable_some.mp hm
  rcases h with h | h
  · exact nomatch h.symm.trans hregion
  · exact nomatch h.symm.trans hmap

/-! One equation for each failing step of `ATTACH`. -/

/-- A failure in step 1 has acquired nothing (R112, R113). -/
theorem State.attachSequence_of_unmappable {s : State} (hm : s.mappable = none) :
    s.attachSequence = s.respond (.err .resourceUnavailable) := by
  simp only [State.attachSequence, hm, State.raise_eq]

/-- A failure in step 2 releases the mapping (R116). -/
theorem State.attachSequence_of_no_clock {s : State} {b n : Nat} (hm : s.mappable = some (b, n))
    (hc : s.plat.clock = false) :
    s.attachSequence =
      { s with trace := s.trace ++ [Event.mapRegion, .unmapRegion] }.respond (.err .clockUnavailable) := by
  simp [State.attachSequence, hm, hc, State.emit]

/-- A failure in step 3 releases the clock and then the mapping (R114, R116). -/
theorem State.attachSequence_of_no_rate {s : State} {b n : Nat} (hm : s.mappable = some (b, n))
    (hc : s.plat.clock = true) (hr : s.plat.rate = none ∨ s.plat.rate = some 0) :
    s.attachSequence =
      { s with trace := s.trace ++ [Event.mapRegion, .clkAcquire, .clkGetRate s.plat.rate, .clkRelease, .unmapRegion]
        }.respond (.err .clockUnavailable) := by
  have hp : attachPeriod s.plat.rate = .error .clockUnavailable := attachPeriod_error.mpr ⟨rfl, hr⟩
  simp [State.attachSequence, hm, hc, hp, State.emit]

/-- The balance R116 asks of the events of a failed `ATTACH`: what they acquire they release, and they never disable
the clock. -/
def ReleasesAll (evs : List Event) : Prop :=
  evs.count .mapRegion = evs.count .unmapRegion ∧ evs.count .clkAcquire = evs.count .clkRelease ∧ .clkDisable ∉ evs

theorem releasesAll_nil : ReleasesAll [] := by
  simp [ReleasesAll]

theorem releasesAll_rollback_mapping : ReleasesAll [.mapRegion, .unmapRegion] := by
  simp [ReleasesAll]

theorem releasesAll_rollback_clock (rate : Option Word) :
    ReleasesAll [.mapRegion, .clkAcquire, .clkGetRate rate, .clkRelease, .unmapRegion] := by
  simp [ReleasesAll]

/-- Each of the three failures of the attach sequence has released what it acquired; the fourth outcome, the
construction of the channel, answers `Ok` (R116). -/
theorem State.attachSequence_error_releasesAll {s : State} {k : ErrorKind}
    (h : s.attachSequence.responses = s.responses ++ [.err k]) :
    ∃ evs, s.attachSequence.trace = s.trace ++ evs ∧ ReleasesAll evs := by
  rcases s.attachSequence_cases with ⟨_, hs⟩ | ⟨_, _, _, _, hs⟩ | ⟨_, _, _, _, _, hs⟩ | ⟨_, _, _, _, _, _, hs⟩ <;>
    rw [hs] at h ⊢
  case inl => exact ⟨[], (List.append_nil _).symm, releasesAll_nil⟩
  case inr.inl => exact ⟨_, rfl, releasesAll_rollback_mapping⟩
  case inr.inr.inl => exact ⟨_, rfl, releasesAll_rollback_clock _⟩
  case inr.inr.inr => exact nomatch List.append_cancel_left h

/-- Settles O32: the rollback of each failing step, and the balance of all of them. -/
theorem attachRollsBack : Obligations.AttachRollsBack := by
  refine ⟨?rollbacks, ?balance⟩
  case rollbacks =>
    intro s b n hl hregion hmap hlayout
    have hm : s.mappable = some (b, n) := State.mappable_some.mpr ⟨hregion, hmap, hlayout⟩
    rw [exec_attach_of_unattached hl]
    constructor
    · intro hc
      rw [State.attachSequence_of_no_clock hm hc, State.respond]
    · intro hc hr
      rw [State.attachSequence_of_no_rate hm hc hr, State.respond]
  case balance =>
    intro s t k h herr
    obtain ⟨_, rfl⟩ := execAttach_next h
    exact State.attachSequence_error_releasesAll herr

/-- Settles O30: without a mapped region step 1 fails, and it has emitted nothing. -/
theorem attachNeedsRegion : Obligations.AttachNeedsRegion := by
  intro s hl h
  have hm : s.mappable = none := State.mappable_eq_none_of_no_region h
  rw [exec_attach_of_unattached hl, State.attachSequence_of_unmappable hm, State.respond]

/-- Settles O36: a `DETACH` that has a step is the teardown, whose events are these four in this order, and one
response, which adds no event. -/
theorem detachOrder : Obligations.DetachOrder := by
  intro s t h
  obtain ⟨_, rfl⟩ := execDetach_next h
  rw [State.respond_trace, State.teardown_trace]

/-- Settles O37: the teardown leaves the converter `Detached`, where `DETACH` has no meaning. -/
theorem doubleDetachRefused : Obligations.DoubleDetachRefused := by
  intro s t h
  obtain ⟨_, rfl⟩ := execDetach_next h
  apply exec_detach_of_detached
  rw [State.respond_lstate, State.teardown_lstate]

end Sys2Proof.Machine

/-! ### The command port of 30_encoding.md -/

namespace Sys2Proof

/-! The decoder on fields: one inverse of "opcode and raw operands". -/

theorem encode_fields (i : Instr) :
    opField (encode i) = i.opcode ∧ aField (encode i) = i.rawOperands.a ∧ bField (encode i) = i.rawOperands.b :=
  fields_append _ _ _

theorem decodeA0_ok {op : BitVec 8} {a b : Word} {mk : Word → Instr} {i : Instr} :
    decodeA0 op a b mk = .ok i ↔ b = 0 ∧ mk a = i := by
  unfold decodeA0
  split <;> simp_all

theorem decodeZZ_ok {op : BitVec 8} {a b : Word} {j i : Instr} :
    decodeZZ op a b j = .ok i ↔ a = 0 ∧ b = 0 ∧ j = i := by
  unfold decodeZZ
  split
  · split <;> simp_all
  · simp_all

/-- The decoder gives back the command whose opcode and raw operands it is given (R52, R62). -/
theorem decodeFields_rawOperands (i : Instr) :
    decodeFields i.opcode i.rawOperands.a i.rawOperands.b = .ok i := by
  cases i <;> rfl

/-- A command is decoded from its own fields only (R52, R62). -/
theorem fields_of_decodeFields {op : BitVec 8} {a b : Word} {i : Instr} (h : decodeFields op a b = .ok i) :
    i.opcode = op ∧ i.rawOperands.a = a ∧ i.rawOperands.b = b := by
  unfold decodeFields at h
  split at h
  case isTrue hop =>
    obtain ⟨rfl, rfl⟩ := decodeA0_ok.mp h
    exact ⟨hop.symm, rfl, rfl⟩
  split at h
  case isTrue hop =>
    cases h
    exact ⟨hop.symm, rfl, rfl⟩
  split at h
  case isTrue hop =>
    obtain ⟨rfl, rfl⟩ := decodeA0_ok.mp h
    exact ⟨hop.symm, rfl, rfl⟩
  split at h
  case isTrue hop =>
    obtain ⟨rfl, rfl, rfl⟩ := decodeZZ_ok.mp h
    exact ⟨hop.symm, rfl, rfl⟩
  split at h
  case isTrue hop =>
    obtain ⟨rfl, rfl, rfl⟩ := decodeZZ_ok.mp h
    exact ⟨hop.symm, rfl, rfl⟩
  case isFalse => cases h

/-- What it takes for a word to decode to a command. -/
theorem decode_ok_iff {cw : CommandWord} {i : Instr} :
    decode cw = .ok i ↔ i.opcode = opField cw ∧ i.rawOperands.a = aField cw ∧ i.rawOperands.b = bField cw := by
  refine ⟨fields_of_decodeFields, ?_⟩
  rintro ⟨hop, ha, hb⟩
  rw [decode, ← hop, ← ha, ← hb, decodeFields_rawOperands]

@[simp] theorem decode_encode (i : Instr) : decode (encode i) = .ok i := by
  obtain ⟨hop, ha, hb⟩ := encode_fields i
  exact decode_ok_iff.mpr ⟨hop.symm, ha.symm, hb.symm⟩

theorem encode_of_decode {cw : CommandWord} {i : Instr} (h : decode cw = .ok i) : encode i = cw := by
  obtain ⟨hop, ha, hb⟩ := decode_ok_iff.mp h
  rw [encode, hop, ha, hb, fields_cover]

/-- Settles O1: the fields of a command's word are its opcode and raw operands, and from these the decoder gives the
command back. -/
theorem decodeAfterEncode : Obligations.DecodeAfterEncode :=
  fun i _ => decode_encode i

/-- Settles O2: a word that decodes has the command's own fields, and a word is made of its fields. -/
theorem encodeAfterDecode : Obligations.EncodeAfterDecode :=
  fun _ _ h => encode_of_decode h

/-! Masks: `AND` with a mask, and comparison, are done field by field. -/

theorem eq_append_iff {cw : CommandWord} {op : BitVec 8} {a b : Word} :
    cw = op ++ a ++ b ↔ opField cw = op ∧ aField cw = a ∧ bField cw = b := by
  constructor
  · rintro rfl
    exact fields_append op a b
  · rintro ⟨rfl, rfl, rfl⟩
    exact (fields_cover cw).symm

theorem and_eq_append_iff (cw : CommandWord) (mop op : BitVec 8) (ma a mb b : Word) :
    cw &&& (mop ++ ma ++ mb) = op ++ a ++ b ↔
      opField cw &&& mop = op ∧ aField cw &&& ma = a ∧ bField cw &&& mb = b := by
  have hcw : cw &&& (mop ++ ma ++ mb) =
      ((opField cw &&& mop) ++ (aField cw &&& ma) ++ (bField cw &&& mb) : CommandWord) := by
    rw [← BitVec.and_append, ← BitVec.and_append, fields_cover]
  rw [hcw, eq_append_iff]
  obtain ⟨hop, ha, hb⟩ := fields_append (opField cw &&& mop) (aField cw &&& ma) (bField cw &&& mb)
  rw [hop, ha, hb]

theorem and_allOnes_word (x : Word) : x &&& 0xFFFFFFFF = x :=
  BitVec.and_allOnes

theorem and_allOnes_byte (x : BitVec 8) : x &&& 0xFF = x :=
  BitVec.and_allOnes

/-- The mask of format `A0`: the opcode and `B`. -/
theorem mask_a0_iff (cw : CommandWord) (op : BitVec 8) :
    cw &&& 0xFF00000000FFFFFFFF = op ++ (0 : Word) ++ (0 : Word) ↔ opField cw = op ∧ bField cw = 0 := by
  have h := and_eq_append_iff cw 0xFF op 0 0 0xFFFFFFFF 0
  rw [and_allOnes_byte, and_allOnes_word] at h
  simpa using h

/-- The mask of format `AB`: the opcode. -/
theorem mask_ab_iff (cw : CommandWord) (op : BitVec 8) :
    cw &&& 0xFF0000000000000000 = op ++ (0 : Word) ++ (0 : Word) ↔ opField cw = op := by
  have h := and_eq_append_iff cw 0xFF op 0 0 0 0
  rw [and_allOnes_byte] at h
  simpa using h

/-- The mask of format `00`: the whole word. -/
theorem mask_zz_iff (cw : CommandWord) (op : BitVec 8) :
    cw &&& 0xFFFFFFFFFFFFFFFFFF = op ++ (0 : Word) ++ (0 : Word) ↔
      opField cw = op ∧ aField cw = 0 ∧ bField cw = 0 := by
  have h := and_eq_append_iff cw 0xFF op 0xFFFFFFFF 0 0xFFFFFFFF 0
  rw [and_allOnes_byte, and_allOnes_word, and_allOnes_word] at h
  simpa using h

theorem aField_eq_iff (cw : CommandWord) (a : Word) : a = aField cw ↔ cw.toNat / 2 ^ 32 % 2 ^ 32 = a.toNat := by
  obtain ⟨_, ha, _⟩ := toNat_fields cw
  rw [← ha, BitVec.toNat_inj, eq_comm]

theorem bField_eq_iff (cw : CommandWord) (b : Word) : b = bField cw ↔ cw.toNat % 2 ^ 32 = b.toNat := by
  obtain ⟨_, _, hb⟩ := toNat_fields cw
  rw [← hb, BitVec.toNat_inj, eq_comm]

/-- A row of format `A0`, for the two commands that have it. -/
theorem decode_a0_row (cw : CommandWord) {i : Instr} {a : Word} {m : CommandWord}
    (hi : i.rawOperands = ⟨.a0, a, 0⟩) (hm : m = i.opcode ++ (0 : Word) ++ (0 : Word)) :
    decode cw = .ok i ↔ cw &&& 0xFF00000000FFFFFFFF = m ∧ cw.toNat / 2 ^ 32 % 2 ^ 32 = a.toNat := by
  rw [decode_ok_iff, hm, mask_a0_iff, ← aField_eq_iff, hi]
  constructor
  · rintro ⟨hop, ha, hb⟩
    exact ⟨⟨hop.symm, hb.symm⟩, ha⟩
  · rintro ⟨⟨hop, hb⟩, ha⟩
    exact ⟨hop.symm, ha, hb.symm⟩

/-- A row of format `00`, for the two commands that have it. -/
theorem decode_zz_row (cw : CommandWord) {i : Instr} {m : CommandWord}
    (hi : i.rawOperands = ⟨.zz, 0, 0⟩) (hm : m = i.opcode ++ (0 : Word) ++ (0 : Word)) :
    decode cw = .ok i ↔ cw &&& 0xFFFFFFFFFFFFFFFFFF = m := by
  rw [decode_ok_iff, hm, mask_zz_iff, hi, eq_comm, @eq_comm _ 0 (aField cw), @eq_comm _ 0 (bField cw)]

/-- The row of `CONFIG`, the one command of format `AB`. -/
theorem decode_config_row (cw : CommandWord) (a b : Word) :
    decode cw = .ok (.config a b) ↔ cw &&& 0xFF0000000000000000 = 0x020000000000000000 ∧
      cw.toNat / 2 ^ 32 % 2 ^ 32 = a.toNat ∧ cw.toNat % 2 ^ 32 = b.toNat := by
  rw [decode_ok_iff, ← aField_eq_iff, ← bField_eq_iff, eq_comm]
  exact and_congr_left' (mask_ab_iff cw 0x02).symm

/-- Settles O3: a row's mask and match compare the opcode and the fields that its format requires to be zero. -/
theorem opcodeMapRows : Obligations.OpcodeMapRows := by
  intro cw a b
  have hclkper : (0x010000000000000000 : CommandWord) = (0x01 : BitVec 8) ++ (0 : Word) ++ (0 : Word) := by decide
  have hcapture : (0x030000000000000000 : CommandWord) = (0x03 : BitVec 8) ++ (0 : Word) ++ (0 : Word) := by decide
  exact ⟨decode_a0_row cw rfl hclkper, decode_config_row cw a b, decode_a0_row cw rfl hcapture,
    decode_zz_row cw rfl (by decide), decode_zz_row cw rfl (by decide)⟩

/-! The illegal words. -/

theorem decodeA0_error {op : BitVec 8} {a b : Word} {mk : Word → Instr} :
    (∃ e, decodeA0 op a b mk = .error e) ↔ b ≠ 0 := by
  unfold decodeA0
  split <;> simp_all

theorem decodeZZ_error {op : BitVec 8} {a b : Word} {i : Instr} :
    (∃ e, decodeZZ op a b i = .error e) ↔ ¬ (a = 0 ∧ b = 0) := by
  unfold decodeZZ
  split
  · split <;> simp_all
  · simp_all

/-- `ILLEGAL` by fields (R55). -/
theorem decodeFields_error {op : BitVec 8} {a b : Word} :
    (∃ e, decodeFields op a b = .error e) ↔
      (op.toNat = 0 ∨ 6 ≤ op.toNat) ∨ ((op.toNat = 1 ∨ op.toNat = 3) ∧ b ≠ 0) ∨
        ((op.toNat = 4 ∨ op.toNat = 5) ∧ ¬ (a = 0 ∧ b = 0)) := by
  unfold decodeFields
  split
  case isTrue hop => subst hop; simp [decodeA0_error]
  split
  case isTrue hop => subst hop; simp
  split
  case isTrue hop => subst hop; simp [decodeA0_error]
  split
  case isTrue hop => subst hop; simp [decodeZZ_error]
  split
  case isTrue hop => subst hop; simp [decodeZZ_error]
  case isFalse h₁ h₂ h₃ h₄ h₅ =>
    have hreserved : op.toNat = 0 ∨ 6 ≤ op.toNat := by bv_omega
    exact ⟨fun _ => .inl hreserved, fun _ => ⟨_, rfl⟩⟩

theorem bField_ne_zero_iff (cw : CommandWord) : bField cw ≠ 0 ↔ cw.toNat % 2 ^ 32 ≠ 0 :=
  not_congr (eq_comm.trans (bField_eq_iff cw 0))

theorem operands_eq_zero_iff (cw : CommandWord) : aField cw = 0 ∧ bField cw = 0 ↔ cw.toNat % 2 ^ 64 = 0 := by
  rw [eq_comm, aField_eq_iff, @eq_comm _ (bField cw), bField_eq_iff]
  have h₀ : (0 : Word).toNat = 0 := rfl
  omega

/-- Settles O4: the decoder's three refusals, with the fields read as numbers. -/
theorem illegalWordsExactly : Obligations.IllegalWordsExactly := by
  intro cw
  obtain ⟨hop, _, _⟩ := toNat_fields cw
  rw [decode, decodeFields_error, hop, bField_ne_zero_iff, operands_eq_zero_iff]

/-- Settles O5: each of the six words, by its fields. -/
theorem sampleWordsDecode : Obligations.SampleWordsDecode :=
  ⟨decode_encode (.clkper 100_000_000), decode_encode (.config 5 10), decode_encode (.capture 4_294_967_295),
    decode_encode .attach, decode_encode .detach, by decide⟩

namespace Machine

theorem Response.word_toNat (r : Response) :
    r.word.toNat = r.status.toNat * 2 ^ 64 + r.values.1.toNat * 2 ^ 32 + r.values.2.toNat :=
  toNat_append_fields _ _ _

/-- The status is what stands above the two payload words. -/
theorem Response.word_toNat_div (r : Response) : r.word.toNat / 2 ^ 64 = r.status.toNat := by
  have := r.values.1.isLt
  have := r.values.2.isLt
  rw [Response.word_toNat]
  omega

theorem Response.err_word_toNat (k : ErrorKind) : (Response.err k).word.toNat = k.code.toNat * 2 ^ 64 := by
  simp [Response.word_toNat, Response.status, Response.values]

theorem ErrorKind.code_range (k : ErrorKind) : 1 ≤ k.code.toNat ∧ k.code.toNat ≤ 6 := by
  cases k <;> decide

theorem Response.status_eq_zero_iff (r : Response) : r.status.toNat = 0 ↔ ∃ pl, r = .ok pl := by
  cases r with
  | ok p => exact ⟨fun _ => ⟨p, rfl⟩, fun _ => rfl⟩
  | err k =>
    have hk : k.code.toNat ≠ 0 := Nat.one_le_iff_ne_zero.mp k.code_range.1
    exact ⟨fun h => absurd h hk, fun ⟨_, h⟩ => nomatch h⟩

theorem Response.status_le (r : Response) : r.status.toNat ≤ 6 := by
  cases r with
  | ok p => exact Nat.zero_le 6
  | err k => exact k.code_range.2

/-- Settles O6: the word is a sum of status and payload at their places, and the payload stays below the status. -/
theorem responseWordLayout : Obligations.ResponseWordLayout := by
  intro r q d p
  refine ⟨?unit, ?clockPeriod, ?measurement, Response.err_word_toNat _, Response.err_word_toNat _,
    Response.err_word_toNat _, Response.err_word_toNat _, Response.err_word_toNat _, Response.err_word_toNat _,
    ?okStatus, ?statusBound⟩
  case unit => rfl
  case clockPeriod => rw [Response.word_toNat]; simp [Response.status, Response.values]
  case measurement => rw [Response.word_toNat]; simp [Response.status, Response.values]
  case okStatus => rw [Response.word_toNat_div, Response.status_eq_zero_iff]
  case statusBound => rw [Response.word_toNat_div]; exact r.status_le

/-! ### The step: one input is taken and answered -/

theorem step_of_idle {s : State} (h : s.pending = []) : step s = .next s := by
  simp [step, State.takeInput, h]

theorem step_of_latch {s : State} {l : Latch} {rest : List HostInput} (h : s.pending = .latch l :: rest) :
    step s = .next (State.latchBetweenCommands l { s with pending := rest }) := by
  simp [step, State.takeInput, h]

theorem step_of_legal {s : State} {cw : CommandWord} {plat : Plat} {mid : List Latch} {rest : List HostInput}
    {i : Instr} (h : s.pending = .command cw plat mid :: rest) (hi : decode cw = .ok i) :
    step s = exec i { s with pending := rest, plat := plat, midLatches := mid } := by
  simp [step, State.takeInput, h, hi]

theorem step_of_illegal {s : State} {cw : CommandWord} {plat : Plat} {mid : List Latch} {rest : List HostInput}
    {e : DecodeError} (h : s.pending = .command cw plat mid :: rest) (he : decode cw = .error e) :
    step s = .next (State.illegalWord { s with pending := rest, plat := plat, midLatches := mid }) := by
  simp [step, State.takeInput, h, he]

/-- Settles O10: with nothing to take the step answers its own state. -/
theorem idleStepWaits : Obligations.IdleStepWaits :=
  fun _ h => step_of_idle h

/-- Settles O7: the taken word is decoded and its command executed. -/
theorem stepRunsDecoded : Obligations.StepRunsDecoded :=
  fun _ _ _ _ _ _ h hi _ => step_of_legal h hi

/-- Settles O9: the answer to an illegal word is one raised error. -/
theorem illegalWordStep : Obligations.IllegalWordStep := by
  intro s cw plat mid rest e h he
  rw [step_of_illegal h he, State.illegalWord, State.raise_eq, State.respond]

/-- Settles O11: a latch between commands happens or, under `LATCH = none`, is dropped. -/
theorem latchBetweenCommandsStep : Obligations.LatchBetweenCommandsStep := by
  intro s l rest h
  rw [step_of_latch h]
  rcases State.latchBetweenCommands_cases l { s with pending := rest } with ⟨hm, ht⟩ | ⟨hm, ht⟩
  · exact ⟨fun hne => absurd hm hne, fun _ => congrArg _ ht⟩
  · exact ⟨fun _ => congrArg _ ht, fun heq => absurd heq hm⟩

theorem tableWord_toNat (cw : CommandWord) : tableWord 72 cw.toNat = cw := by
  rw [tableWord, Nat.mod_eq_of_lt cw.isLt, BitVec.ofNat_toNat, BitVec.setWidth_eq]

/-- Settles O8: the word placed is the command's own, taking it gives back the state, and it decodes to the command. -/
theorem fetchWordRuns : Obligations.FetchWordRuns := by
  intro s i
  have hp : (s.withFetchWord 72 (encode i).toNat).pending = .command (encode i) s.plat s.midLatches :: s.pending := by
    rw [State.withFetchWord_pending, tableWord_toNat]
  exact step_of_legal hp (decode_encode i)

end Machine

end Sys2Proof

/-! ### Clock periods and `CLKPER` of 41_clock_model.md -/

namespace Sys2Proof.Machine

theorem clockPeriodNs_ok {r q : Word} (h : clockPeriodNs r = .ok q) :
    r ≠ 0 ∧ q.toNat = 1_000_000_000 / r.toNat := by
  unfold clockPeriodNs at h
  split at h
  · cases h
  · rename_i hr
    cases h
    exact ⟨hr, by rw [udiv_toNat, nsPerS_toNat]⟩

/-- Settles O14: `1_000_000_000 / r` is positive exactly for `r` at most `1_000_000_000`. -/
theorem clockPeriodRange : Obligations.ClockPeriodRange := by
  intro r q h
  obtain ⟨hr, hq⟩ := clockPeriodNs_ok h
  have hpos : 0 < r.toNat := toNat_pos hr
  constructor
  · intro hle
    rw [hq]
    exact ⟨Nat.div_pos hle hpos, Nat.div_le_self _ _⟩
  · intro hlt
    exact BitVec.eq_of_toNat_eq (hq.trans (Nat.div_eq_of_lt hlt))

theorem exec_clkper_of_ne_zero {r : Word} (s : State) (hr : r ≠ 0) :
    exec (.clkper r) s = .next (s.respond (.ok (.clockPeriod (udiv nsPerS r hr)))) := by
  simp only [exec, execClkper, clockPeriodNs_of_ne_zero hr, State.finish_eq]

theorem exec_clkper_zero (s : State) : exec (.clkper 0) s = .next (s.respond (.err .clockUnavailable)) :=
  rfl

/-- Settles O15: in every state `CLKPER` is the clock divider and one response. -/
theorem clkperCompletes : Obligations.ClkperCompletes := by
  intro s r
  constructor
  · intro hr
    rw [exec_clkper_of_ne_zero s hr, udiv_eq_ofNat, nsPerS_toNat, State.respond]
  · rintro rfl
    rw [exec_clkper_zero, State.respond]

end Sys2Proof.Machine

/-! ### `CONFIG` of 42_config.md -/

namespace Sys2Proof.Machine

theorem ne_zero_iff_toNat_pos {x : Word} : x ≠ 0 ↔ 0 < x.toNat :=
  ⟨toNat_pos, fun h hx => by simp [hx] at h⟩

theorem div_eq_ofNat (a b : Word) : a / b = .ofNat 32 (a.toNat / b.toNat) := by
  rw [← BitVec.toNat_udiv, BitVec.ofNat_toNat, BitVec.setWidth_eq]

/-- A converter on which `CONFIG` and `CAPTURE` have a step that reaches both registers: attached, with clock period
`c` and a mapping at `b`, its two offsets distinct. -/
structure State.Ready (s : State) (c : Word) (b : Nat) : Prop where
  attached : s.lstate = .attached
  clock : s.clkNs = some c
  mapping : s.base = some b
  distinct : s.params.layout.offUp ≠ s.params.layout.offDown

theorem State.channelClock_of_attached {s : State} {c : Word} (un de : Refusal) (hl : s.lstate = .attached)
    (hc : s.clkNs = some c) : s.channelClock un de = .ok c :=
  State.channelClock_ok.mpr ⟨hl, hc⟩

/-- The two failure cases come before any access, so they need no mapping (R92, R98). -/
theorem exec_config_of_invalid {s : State} {c d : Word} (p : Word) (hl : s.lstate = .attached)
    (hc : s.clkNs = some c) (hd : DutyInvalid c d) :
    exec (.config d p) s = .next (s.respond (.err .invalidDutyCycle)) := by
  simp only [exec, execConfig, State.channelClock_of_attached _ _ hl hc, dif_pos hd, State.raise_eq]

/-- Every other duty is written, whatever is latched in between (R93, R94). -/
theorem exec_config_of_valid {s : State} {c d : Word} {b : Nat} (p : Word) (h : s.Ready c b)
    (hd : ¬ DutyInvalid c d) :
    exec (.config d p) s = .next (State.respond (.ok .unit) { s with
      up := upAfter s.admittedMid (c / d), down := c / (c - d),
      trace := s.trace ++ [.regWrite s.params.layout.offUp (c / d)] ++ latchEvents s.admittedMid ++
        [.regWrite s.params.layout.offDown (c / (c - d))] }) := by
  simp only [exec, execConfig, State.channelClock_of_attached _ _ h.attached h.clock, dif_neg hd,
    State.writeCounts_eq _ _ h.attached h.mapping h.distinct, State.finish_eq, upCount, downCount, udiv, subWrap]

/-- Without a latch both counts stand as written. -/
theorem exec_config_of_no_latch {s : State} {c d : Word} {b : Nat} (p : Word) (h : s.Ready c b)
    (hm : s.admittedMid = []) (hd : ¬ DutyInvalid c d) :
    exec (.config d p) s = .next (State.respond (.ok .unit) { s with
      up := c / d, down := c / (c - d),
      trace := s.trace ++
        [.regWrite s.params.layout.offUp (c / d), .regWrite s.params.layout.offDown (c / (c - d))] }) := by
  rw [exec_config_of_valid p h hd, hm]
  simp [upAfter, latchEvents]

/-- A `CONFIG` of an accepted duty has reached the registers, so there was a mapping. -/
theorem State.ready_of_config {s t : State} {c d p : Word} (h : exec (.config d p) s = .next t)
    (hc : s.clkNs = some c) (ho : s.params.layout.offUp ≠ s.params.layout.offDown) (hd : ¬ DutyInvalid c d) :
    ∃ b, s.Ready c b := by
  obtain ⟨hl, c', hc', ⟨hd', _⟩ | ⟨_, u, t', ht, _, _⟩⟩ := execConfig_next h
  · obtain rfl : c' = c := Option.some.inj (hc'.symm.trans hc)
    exact absurd hd' hd
  · unfold State.writeCounts at ht
    split at ht
    · cases ht
    · rename_i t₁ ht₁
      obtain ⟨b, _, hb, _⟩ := State.regWrite32_ok ht₁
      exact ⟨b, hl, hc, hb, ho⟩

/-! The two counts in numbers. -/

theorem toNat_sub_of_lt {c d : Word} (h : d.toNat < c.toNat) : (c - d).toNat = c.toNat - d.toNat := by
  bv_omega

theorem div_eq_zero_of_lt {c d : Word} (h : c.toNat < d.toNat) : c / d = 0 :=
  (div_eq_ofNat c d).trans (congrArg _ (Nat.div_eq_of_lt h))

/-- Above the clock period the wrapped difference exceeds it too (R96). -/
theorem lt_toNat_sub_of_lt {c d : Word} (h : c.toNat < d.toNat) : c.toNat < (c - d).toNat := by
  bv_omega

theorem not_dutyInvalid_of_lt {c d : Word} (hpos : 0 < d.toNat) (hlt : d.toNat < c.toNat) : ¬ DutyInvalid c d := by
  rintro (rfl | rfl)
  · exact absurd hpos (Nat.lt_irrefl 0)
  · exact absurd hlt (Nat.lt_irrefl _)

theorem not_dutyInvalid_of_gt {c d : Word} (h : c.toNat < d.toNat) : ¬ DutyInvalid c d := by
  rintro (rfl | rfl)
  · exact absurd h (Nat.not_lt_zero _)
  · exact absurd h (Nat.lt_irrefl _)

/-- Settles O17: the two writes with the latches between them, and the wrapped difference as a number. -/
theorem configResultWithLatches : Obligations.ConfigResultWithLatches := by
  intro s c d p b hl hc hb ho hd₀ hdc
  have hd : ¬ DutyInvalid c d := not_or.mpr ⟨hd₀, hdc⟩
  have hdown : c / (c - d) = .ofNat 32 (c.toNat / ((c.toNat + 2 ^ 32 - d.toNat) % 2 ^ 32)) := by
    rw [div_eq_ofNat, ← subWrap_toNat, subWrap]
  rw [exec_config_of_valid p ⟨hl, hc, hb, ho⟩ hd, hdown, div_eq_ofNat c d, State.respond]

/-- Settles O16: below the clock period the difference does not wrap. -/
theorem configCoreResult : Obligations.ConfigCoreResult := by
  intro s c d p b hl hc hb ho hm hpos hlt
  have hdown : c / (c - d) = .ofNat 32 (c.toNat / (c.toNat - d.toNat)) := by
    rw [div_eq_ofNat, toNat_sub_of_lt hlt]
  rw [exec_config_of_no_latch p ⟨hl, hc, hb, ho⟩ hm (not_dutyInvalid_of_lt hpos hlt), hdown, div_eq_ofNat c d,
    State.respond]

/-- Settles O22: both divisors exceed the clock period. -/
theorem configExtendedDomain : Obligations.ConfigExtendedDomain := by
  intro s c d p b hl hc hb ho hm hgt
  rw [exec_config_of_no_latch p ⟨hl, hc, hb, ho⟩ hm (not_dutyInvalid_of_gt hgt), div_eq_zero_of_lt hgt,
    div_eq_zero_of_lt (lt_toNat_sub_of_lt hgt), State.respond]

/-- Settles O19: the failing command is one raised error. -/
theorem configFailureWritesNothing : Obligations.ConfigFailureWritesNothing := by
  intro s c d p hl hc hd
  rw [exec_config_of_invalid p hl hc hd, State.respond]

/-- Settles O18: the failure test decides alone, whatever is latched. -/
theorem configFailsExactly : Obligations.ConfigFailsExactly := by
  intro s c d p b hl hc hb ho
  have hvalid (hd : ¬ (d = 0 ∨ d = c)) := exec_config_of_valid p ⟨hl, hc, hb, ho⟩ hd
  refine ⟨⟨?onlyThen, ?fails⟩, ?succeeds⟩
  case onlyThen =>
    rintro ⟨t, ht, hr⟩
    by_contra hd
    cases (hvalid hd).symm.trans ht
    exact nomatch List.append_cancel_left hr
  case fails =>
    intro hd
    exact ⟨_, exec_config_of_invalid p hl hc hd, rfl⟩
  case succeeds =>
    intro hd
    exact ⟨_, hvalid hd, rfl⟩

/-- A count `c / x` for a divisor below the clock period (42_config.md section 3). -/
theorem count_range {c x : Nat} (hpos : 0 < x) (hlt : x < c) :
    (1 ≤ c / x ∧ c / x ≤ c) ∧ (c / x = 1 ↔ c < 2 * x) ∧ (2 * x = c → c / x = 2) := by
  refine ⟨⟨Nat.div_pos hlt.le hpos, Nat.div_le_self _ _⟩, ?one, ?half⟩
  case one =>
    rw [Nat.div_eq_iff hpos]
    omega
  case half =>
    rintro rfl
    exact Nat.mul_div_cancel 2 hpos

theorem eq_ofNat_iff_toNat {x : Word} {n : Nat} (h : n < 2 ^ 32) : x = .ofNat 32 n ↔ x.toNat = n := by
  rw [← BitVec.toNat_inj, BitVec.toNat_ofNat, Nat.mod_eq_of_lt h]

/-- Settles O21: `UP` divides by the duty and `DOWN` by what is left of the clock period. -/
theorem configCoreCounts : Obligations.ConfigCoreCounts := by
  intro s t c d p hc ho hm hpos hlt h
  have hd := not_dutyInvalid_of_lt hpos hlt
  obtain ⟨b, hready⟩ := State.ready_of_config h hc ho hd
  cases (exec_config_of_no_latch p hready hm hd).symm.trans h
  have hup : (c / d).toNat = c.toNat / d.toNat := BitVec.toNat_udiv
  have hdown : (c / (c - d)).toNat = c.toNat / (c.toNat - d.toNat) := by
    rw [BitVec.toNat_udiv, toNat_sub_of_lt hlt]
  obtain ⟨hupRange, hupOne, hupTwo⟩ := count_range hpos hlt
  obtain ⟨hdownRange, hdownOne, hdownTwo⟩ :=
    count_range (c := c.toNat) (x := c.toNat - d.toNat) (Nat.sub_pos_of_lt hlt) (Nat.sub_lt (by omega) hpos)
  rw [← hup] at hupRange hupOne hupTwo
  rw [← hdown] at hdownRange hdownOne hdownTwo
  refine ⟨hupRange, hdownRange, ?upOne, ?downOne, ?half⟩
  case upOne => exact (eq_ofNat_iff_toNat (n := 1) (by decide)).trans hupOne
  case downOne =>
    refine ((eq_ofNat_iff_toNat (n := 1) (by decide)).trans hdownOne).trans ?_
    omega
  case half =>
    intro hhalf
    exact ⟨(eq_ofNat_iff_toNat (n := 2) (by decide)).mpr (hupTwo hhalf),
      (eq_ofNat_iff_toNat (n := 2) (by decide)).mpr (hdownTwo (by omega))⟩

end Sys2Proof.Machine

/-! ### `CAPTURE` of 43_capture.md -/

namespace Sys2Proof.Machine

/-- The response of `CAPTURE` to the counts it read (R103, R105, R107). -/
def captureResponse (c u d : Word) : Response :=
  if CountsUnavailable u (countSum u d) then .err .captureUnavailable
  else .ok (.measurement (c / u) (c / countSum u d))

/-- `CAPTURE` reads both registers, whatever is latched in between, and answers from what it read (R101). -/
theorem exec_capture_of_ready {s : State} {c : Word} {b : Nat} (x : Word) (h : s.Ready c b) :
    exec (.capture x) s = .next (State.respond (captureResponse c s.up (downAfter s.admittedMid s.down)) { s with
      up := upAfter s.admittedMid s.up, down := downAfter s.admittedMid s.down,
      trace := s.trace ++ [.regRead s.params.layout.offUp s.up] ++ latchEvents s.admittedMid ++
        [.regRead s.params.layout.offDown (downAfter s.admittedMid s.down)] }) := by
  simp only [exec, execCapture, State.channelClock_of_attached _ _ h.attached h.clock,
    State.readCounts_eq h.attached h.mapping h.distinct, captureResponse]
  by_cases hu : CountsUnavailable s.up (countSum s.up (downAfter s.admittedMid s.down))
  · rw [dif_pos hu, if_pos hu, State.raise_eq]
  · rw [dif_neg hu, if_neg hu, State.finish_eq, capturedDuty, capturedPeriod, udiv, udiv]

/-- Without a latch no register changes. -/
theorem exec_capture_of_no_latch {s : State} {c : Word} {b : Nat} (x : Word) (h : s.Ready c b)
    (hm : s.admittedMid = []) :
    exec (.capture x) s = .next (State.respond (captureResponse c s.up s.down) { s with
      trace := s.trace ++
        [.regRead s.params.layout.offUp s.up, .regRead s.params.layout.offDown s.down] }) := by
  rw [exec_capture_of_ready x h, hm]
  simp [upAfter, downAfter, latchEvents]

/-- A `CAPTURE` that has a step has reached the registers, so there was a mapping. -/
theorem State.ready_of_capture {s t : State} {c x : Word} (h : exec (.capture x) s = .next t)
    (hc : s.clkNs = some c) (ho : s.params.layout.offUp ≠ s.params.layout.offDown) : ∃ b, s.Ready c b := by
  obtain ⟨hl, _, u, d, t', _, ht, _⟩ := execCapture_next h
  unfold State.readCounts at ht
  split at ht
  · cases ht
  · rename_i u t₁ ht₁
    obtain ⟨b, _, hb, _⟩ := State.regRead32_ok ht₁
    exact ⟨b, hl, hc, hb, ho⟩

/-! The counts and their sum in numbers. -/

theorem eq_zero_iff_toNat {x : Word} : x = 0 ↔ x.toNat = 0 :=
  eq_ofNat_iff_toNat (by decide)

theorem countSum_toNat (u d : Word) : (countSum u d).toNat = (u.toNat + d.toNat) % 2 ^ 32 :=
  BitVec.toNat_add u d

theorem countSum_toNat_of_lt {u d : Word} (h : u.toNat + d.toNat < 2 ^ 32) :
    (countSum u d).toNat = u.toNat + d.toNat := by
  rw [countSum_toNat, Nat.mod_eq_of_lt h]

theorem captureResponse_toNat (c u d : Word) :
    captureResponse c u d =
      if u.toNat = 0 ∨ (u.toNat + d.toNat) % 2 ^ 32 = 0 then .err .captureUnavailable
      else .ok (.measurement (.ofNat 32 (c.toNat / u.toNat))
        (.ofNat 32 (c.toNat / ((u.toNat + d.toNat) % 2 ^ 32)))) := by
  simp only [captureResponse, CountsUnavailable, eq_zero_iff_toNat, div_eq_ofNat, countSum_toNat]

/-- Counts whose sum does not wrap are available as soon as the first one is. -/
theorem captureResponse_of_ne_zero {u d : Word} (c : Word) (hu : u ≠ 0) (hsum : u.toNat + d.toNat < 2 ^ 32) :
    captureResponse c u d = .ok (.measurement (c / u) (c / countSum u d)) := by
  apply if_neg
  rintro (h | h)
  · exact hu h
  · rw [eq_zero_iff_toNat, countSum_toNat_of_lt hsum] at h
    exact hu (eq_zero_iff_toNat.mpr (Nat.eq_zero_of_add_eq_zero_right h))

theorem captureResponse_zero (c d : Word) : captureResponse c 0 d = .err .captureUnavailable :=
  if_pos (.inl rfl)

/-- Settles O25: the two reads with the latches between them, and the response as numbers. -/
theorem captureResultWithLatches : Obligations.CaptureResultWithLatches := by
  intro s c x b hl hc hb ho
  rw [exec_capture_of_ready x ⟨hl, hc, hb, ho⟩, captureResponse_toNat, State.respond]

/-- Settles O23: the counts are available and their sum is the sum of numbers. -/
theorem captureCoreResult : Obligations.CaptureCoreResult := by
  intro s c x b hl hc hb ho hm hu hsum
  rw [exec_capture_of_no_latch x ⟨hl, hc, hb, ho⟩ hm, captureResponse_of_ne_zero c hu hsum, div_eq_ofNat c s.up,
    div_eq_ofNat c (countSum s.up s.down), countSum_toNat_of_lt hsum, State.respond]

/-- Settles O24: for a sum that does not wrap the second failure case is part of the first. -/
theorem captureFailsExactly : Obligations.CaptureFailsExactly := by
  intro s c x b hl hc hb ho hm hsum
  have hexec := exec_capture_of_no_latch x ⟨hl, hc, hb, ho⟩ hm
  have hcases : s.up.toNat = 0 ∨ s.up.toNat + s.down.toNat = 0 ↔ s.up = 0 := by
    rw [eq_zero_iff_toNat]
    omega
  rw [hcases]
  refine ⟨⟨?onlyThen, ?fails⟩, ?succeeds⟩
  case onlyThen =>
    rintro ⟨t, ht, hr, _⟩
    by_contra hu
    rw [captureResponse_of_ne_zero c hu hsum] at hexec
    cases hexec.symm.trans ht
    exact nomatch List.append_cancel_left hr
  case fails =>
    intro hu
    refine ⟨_, hexec, ?_, rfl, rfl⟩
    rw [State.respond_responses, hu, captureResponse_zero]
  case succeeds =>
    intro hu
    rw [captureResponse_of_ne_zero c hu hsum] at hexec
    exact ⟨_, _, _, hexec, rfl⟩

theorem div_eq_self_iff {c u : Nat} (hc : 1 ≤ c) (hu : 0 < u) : c / u = c ↔ u = 1 := by
  constructor
  · intro h
    by_contra hne
    exact absurd h (Nat.div_lt_self hc (by omega)).ne
  · rintro rfl
    exact Nat.div_one c

theorem div_eq_zero_iff_lt {c u : Nat} (hu : 0 < u) : c / u = 0 ↔ c < u := by
  rw [Nat.div_eq_zero_iff]
  omega

/-- Settles O27: the answer is `c / up` and `c / (up + down)`, with `up` at least 1 and no larger than the sum. -/
theorem captureRanges : Obligations.CaptureRanges := by
  intro s t c x duty period hc ho hm hsum h hr
  obtain ⟨b, hready⟩ := State.ready_of_capture h hc ho
  have hexec := exec_capture_of_no_latch x hready hm
  have hu : s.up ≠ 0 := by
    intro hu
    rw [hu, captureResponse_zero] at hexec
    cases hexec.symm.trans h
    exact nomatch List.append_cancel_left hr
  rw [captureResponse_of_ne_zero c hu hsum] at hexec
  cases hexec.symm.trans h
  cases List.append_cancel_left hr
  have hpos : 0 < s.up.toNat := toNat_pos hu
  have hduty : (c / s.up).toNat = c.toNat / s.up.toNat := BitVec.toNat_udiv
  have hperiod : (c / countSum s.up s.down).toNat = c.toNat / (s.up.toNat + s.down.toNat) := by
    rw [BitVec.toNat_udiv, countSum_toNat_of_lt hsum]
  have hone : s.up = 1 ↔ s.up.toNat = 1 := eq_ofNat_iff_toNat (n := 1) (by decide)
  rw [eq_zero_iff_toNat, eq_zero_iff_toNat, ← BitVec.toNat_inj, hone, eq_zero_iff_toNat, hduty, hperiod]
  refine ⟨Nat.div_le_div_left (Nat.le_add_right _ _) hpos, Nat.div_le_self _ _, fun hc₁ => div_eq_self_iff hc₁ hpos,
    div_eq_zero_iff_lt hpos, div_eq_zero_iff_lt (Nat.add_pos_left hpos _), ?zeroPeriod⟩
  case zeroPeriod =>
    intro hc₀
    rw [hc₀, Nat.zero_div, Nat.zero_div]
    exact ⟨rfl, rfl⟩

/-- Settles O28: the registers hold what `CONFIG` wrote, and `d * (c / d) ≤ c` (43_capture.md section 3). -/
theorem captureAfterConfig : Obligations.CaptureAfterConfig := by
  intro s t c d p x hc hrange ho hm hpos hlt h
  have hd := not_dutyInvalid_of_lt hpos hlt
  obtain ⟨b, hready⟩ := State.ready_of_config h hc ho hd
  have ht := Host.Outcome.next.inj (h.symm.trans (exec_config_of_no_latch p hready hm hd))
  have hreadyAfter : t.Ready c b := by
    rw [ht]
    exact ⟨hready.attached, hready.clock, hready.mapping, hready.distinct⟩
  have hmAfter : t.admittedMid = [] := by
    rw [ht]
    exact hm
  have hup : t.up = c / d := by rw [ht, State.respond_up]
  have hdown : t.down = c / (c - d) := by rw [ht, State.respond_down]
  have hupNat : (c / d).toNat = c.toNat / d.toNat := BitVec.toNat_udiv
  have hdownNat : (c / (c - d)).toNat = c.toNat / (c.toNat - d.toNat) := by
    rw [BitVec.toNat_udiv, toNat_sub_of_lt hlt]
  have huppos : 0 < c.toNat / d.toNat := Nat.div_pos hlt.le hpos
  have hsum : (c / d).toNat + (c / (c - d)).toNat < 2 ^ 32 := by
    have := Nat.div_le_self c.toNat d.toNat
    have := Nat.div_le_self c.toNat (c.toNat - d.toNat)
    omega
  have hresponse := captureResponse_of_ne_zero c (ne_zero_iff_toNat_pos.mpr (hupNat ▸ huppos)) hsum
  refine ⟨_, c / (c / d), c / countSum (c / d) (c / (c - d)), exec_capture_of_no_latch x hreadyAfter hmAfter,
    ?responses, ?trace, ?duty, ?period, ?noSmaller⟩
  case responses =>
    rw [State.respond_responses, hup, hdown, hresponse, ht]
    exact List.append_assoc _ _ _
  case trace =>
    rw [State.respond_trace, hup, hdown, ht]
    exact List.append_assoc _ _ _
  case duty => rw [BitVec.toNat_udiv, hupNat]
  case period => rw [BitVec.toNat_udiv, countSum_toNat_of_lt hsum, hupNat, hdownNat]
  case noSmaller =>
    rw [BitVec.toNat_udiv, hupNat, Nat.le_div_iff_mul_le huppos]
    exact Nat.mul_div_le _ _

end Sys2Proof.Machine

/-! ### `ATTACH` and `DETACH` of 44_lifecycle.md -/

namespace Sys2Proof.Machine

theorem State.mappable_eq_none_of_bad_layout {s : State} {b n : Nat} (hregion : s.plat.region = some (b, n))
    (hlayout : ¬ LayoutOK s.params.layout n) : s.mappable = none := by
  rw [Option.eq_none_iff_forall_ne_some]
  rintro ⟨b', n'⟩ hm
  obtain ⟨hregion', _, hlayout'⟩ := State.mappable_some.mp hm
  cases hregion.symm.trans hregion'
  exact hlayout hlayout'

/-- Every collaborator answers: the channel is constructed (R110, R114, R115). -/
theorem State.attachSequence_of_rate {s : State} {b n : Nat} {r : Word} (hm : s.mappable = some (b, n))
    (hc : s.plat.clock = true) (hr : s.plat.rate = some r) (hr₀ : r ≠ 0) :
    s.attachSequence = State.respond (.ok .unit) { s with
      clkNs := some (nsPerS / r), base := some b, regionLen := some n, lstate := .attached,
      trace := s.trace ++ [.mapRegion, .clkAcquire, .clkGetRate (some r), .chanRegister] } := by
  have hp : attachPeriod (some r) = .ok (nsPerS / r) := attachPeriod_ok.mpr ⟨r, rfl, hr₀, rfl⟩
  simp [State.attachSequence, hm, hc, hr, hp, State.emit, State.construct]

/-- Step 1 alone answers `ResourceUnavailable`. -/
theorem State.attachSequence_resourceUnavailable_iff (s : State) :
    s.attachSequence.responses = s.responses ++ [.err .resourceUnavailable] ↔ s.mappable = none := by
  rcases s.attachSequence_cases with ⟨hm, hs⟩ | ⟨_, _, hm, _, hs⟩ | ⟨_, _, hm, _, _, hs⟩ | ⟨_, _, _, hm, _, _, hs⟩ <;>
    simp [hs, hm]

theorem nsPerS_div (r : Word) : nsPerS / r = .ofNat 32 (1_000_000_000 / r.toNat) := by
  rw [div_eq_ofNat, nsPerS_toNat]

theorem nsPerS_div_of_gt {r : Word} (h : 1_000_000_000 < r.toNat) : nsPerS / r = 0 :=
  div_eq_zero_of_lt (nsPerS_toNat ▸ h)

/-- Settles O29: the region is mapped, and the remaining steps succeed one after the other. -/
theorem attachCompletes : Obligations.AttachCompletes := by
  intro s b n r hl hregion hmap hup₄ hdown₄ hupFits hdownFits ho hclock hrate hr
  have hm : s.mappable = some (b, n) :=
    State.mappable_some.mpr ⟨hregion, hmap, hup₄, hdown₄, hupFits, hdownFits, ho⟩
  rw [exec_attach_of_unattached hl, State.attachSequence_of_rate hm hclock hrate hr, nsPerS_div, State.respond]

theorem layoutOK_default_iff (n : Nat) : LayoutOK Config.defaultLayout n ↔ 8 ≤ n :=
  ⟨fun ⟨_, _, _, hdownFits, _⟩ => hdownFits,
    fun h => ⟨rfl, rfl, Nat.le_trans (by decide) h, h, by decide⟩⟩

/-- Settles O31: the first part is the validation's five conjuncts denied one by one, the second their value at the
default offsets. -/
theorem attachChecksLayout : Obligations.AttachChecksLayout := by
  intro s b n hl hregion hmap
  rw [exec_attach_of_unattached hl]
  constructor
  · intro hbad
    have hlayout : ¬ LayoutOK s.params.layout n := by
      rintro ⟨hup₄, hdown₄, hupFits, hdownFits, ho⟩
      omega
    rw [State.attachSequence_of_unmappable (State.mappable_eq_none_of_bad_layout hregion hlayout), State.respond]
  · intro hdefault
    have hmappable : s.mappable = none ↔ n < 8 := by
      rw [← not_le, ← layoutOK_default_iff, ← hdefault]
      refine ⟨fun hm hlayout => ?_, State.mappable_eq_none_of_bad_layout hregion⟩
      exact nomatch hm.symm.trans (State.mappable_some.mpr ⟨hregion, hmap, hlayout⟩)
    rw [← hmappable, ← State.attachSequence_resourceUnavailable_iff]
    exact ⟨fun ⟨_, ht, hr⟩ => Host.Outcome.next.inj ht ▸ hr, fun hr => ⟨_, rfl, hr⟩⟩

/-- Settles O33: the three failures keep the control state, and the construction answers `Ok`. -/
theorem attachAllOrNothing : Obligations.AttachAllOrNothing := by
  intro s t h
  obtain ⟨hl, rfl⟩ := execAttach_next h
  refine ⟨hl, ?_⟩
  rcases s.attachSequence_cases with ⟨_, hs⟩ | ⟨_, _, _, _, hs⟩ | ⟨_, _, _, _, _, hs⟩ | ⟨_, _, _, _, _, _, hs⟩ <;>
    rw [hs]
  case inl => exact ⟨rfl, rfl, .inr ⟨.inl rfl, hl, rfl, rfl, rfl⟩⟩
  case inr.inl => exact ⟨rfl, rfl, .inr ⟨.inr rfl, hl, rfl, rfl, rfl⟩⟩
  case inr.inr.inl => exact ⟨rfl, rfl, .inr ⟨.inr rfl, hl, rfl, rfl, rfl⟩⟩
  case inr.inr.inr => exact ⟨rfl, rfl, .inl ⟨rfl, rfl, rfl, rfl, rfl⟩⟩

/-- An `ATTACH` that leaves the converter attached has stored the quotient of `NS_PER_S` and the platform's rate. -/
theorem clkNs_of_attached {s t : State} (h : exec .attach s = .next t) (ht : t.lstate = .attached) :
    ∃ r, s.plat.rate = some r ∧ t.clkNs = some (nsPerS / r) := by
  obtain ⟨hl, rfl⟩ := execAttach_next h
  rcases s.attachSequence_cases with ⟨_, hs⟩ | ⟨_, _, _, _, hs⟩ | ⟨_, _, _, _, _, hs⟩ | ⟨_, _, _, _, _, hp, hs⟩ <;>
    rw [hs] at ht ⊢
  case inl => exact nomatch hl.symm.trans ht
  case inr.inl => exact nomatch hl.symm.trans ht
  case inr.inr.inl => exact nomatch hl.symm.trans ht
  case inr.inr.inr =>
    obtain ⟨r, hr, _, rfl⟩ := attachPeriod_ok.mp hp
    exact ⟨r, hr, rfl⟩

/-- Settles O34: above `1_000_000_000` the quotient is 0, and no rate above it is 0. -/
theorem attachAcceptsZeroPeriod : Obligations.AttachAcceptsZeroPeriod := by
  intro s r hrate hgt
  constructor
  · intro b n hl hregion hmap hlayout hclock
    have hm : s.mappable = some (b, n) := State.mappable_some.mpr ⟨hregion, hmap, hlayout⟩
    have hr : r ≠ 0 := ne_zero_iff_toNat_pos.mpr (Nat.zero_lt_of_lt hgt)
    rw [exec_attach_of_unattached hl, State.attachSequence_of_rate hm hclock hrate hr, nsPerS_div_of_gt hgt,
      State.respond]
  · intro t h ht
    obtain ⟨r', hrate', hclk⟩ := clkNs_of_attached h ht
    cases hrate.symm.trans hrate'
    rw [hclk, nsPerS_div_of_gt hgt]

theorem exec_detach_of_attached {s : State} (hl : s.lstate = .attached) :
    exec .detach s =
      .next (s.teardown.respond (if s.plat.detachFault = true then .err .detachError else .ok .unit)) := by
  simp only [exec, execDetach, hl]

theorem State.teardown_eq (s : State) :
    s.teardown = { s with
      clkNs := none, base := none, regionLen := none, lstate := .detached,
      trace := s.trace ++ [.clkDisable, .clkRelease, .unmapRegion, .chanUnregister] } := by
  simp [State.teardown, State.emit]

/-- Settles O35: the teardown is the same with and without a reported failure; only the response differs. -/
theorem detachCompletes : Obligations.DetachCompletes := by
  intro s hl
  rw [exec_detach_of_attached hl, State.teardown_eq, State.respond]

end Sys2Proof.Machine

/-! ### The register port of 40_register_interface.md -/

namespace Sys2Proof.Machine

theorem State.portAddress_of_undefined {s : State} {off : Nat} (hl : s.lstate = .attached)
    (hu : off ≠ s.params.layout.offUp) (hd : off ≠ s.params.layout.offDown) :
    s.portAddress off = .error (.refused (.undefinedOffset off)) := by
  simp [State.portAddress, hl, hu, hd]

theorem State.portAddress_of_not_attached {s : State} (off : Nat) (hl : s.lstate ≠ .attached) :
    s.portAddress off = .error (.refused .portNotAttached) := by
  unfold State.portAddress
  split
  · rfl
  · rfl
  · exact absurd ‹_› hl

/-- An offset without an address stops a read and a write alike. -/
theorem State.port_of_portAddress_error {s : State} {off : Nat} {e : Stop} (v : Word)
    (h : s.portAddress off = .error e) : s.regRead32 off = .error e ∧ s.regWrite32 off v = .error e := by
  simp [State.regRead32, State.regWrite32, h]

/-- Settles O49: the four defined accesses, and the port's two refusals. -/
theorem registerPortContract : Obligations.RegisterPortContract := by
  intro s off v
  refine ⟨?defined, ?undefinedOffset, ?notAttached⟩
  case defined =>
    intro b hl hb ho
    exact ⟨State.regRead32_up hl hb rfl, State.regRead32_down hl hb rfl ho.symm, State.regWrite32_up v hl hb rfl,
      State.regWrite32_down v hl hb rfl ho.symm⟩
  case undefinedOffset =>
    intro hl hu hd
    exact State.port_of_portAddress_error v (State.portAddress_of_undefined hl hu hd)
  case notAttached =>
    intro hl
    exact State.port_of_portAddress_error v (State.portAddress_of_not_attached off hl)

/-- The value `v` stands in the register that the port reaches at `off`. -/
def State.PortHolds (s : State) (off : Nat) (v : Word) : Prop :=
  ∃ b, s.lstate = .attached ∧ s.base = some b ∧
    ((off = s.params.layout.offUp ∧ s.up = v) ∨
     (off ≠ s.params.layout.offUp ∧ off = s.params.layout.offDown ∧ s.down = v))

theorem State.PortHolds.read {s : State} {off : Nat} {v : Word} (h : s.PortHolds off v) :
    s.regRead32 off = .ok (v, { s with trace := s.trace ++ [.regRead off v] }) := by
  obtain ⟨b, hl, hb, ⟨ho, rfl⟩ | ⟨hne, ho, rfl⟩⟩ := h
  · exact State.regRead32_up hl hb ho
  · exact State.regRead32_down hl hb ho hne

/-- After a write the value stands at its offset. -/
theorem State.portHolds_of_write {s t : State} {off : Nat} {v : Word} (h : s.regWrite32 off v = .ok t) :
    t.PortHolds off v := by
  obtain ⟨b, hl, hb, ⟨ho, rfl⟩ | ⟨hne, ho, rfl⟩⟩ := State.regWrite32_ok h
  · exact ⟨b, hl, hb, .inl ⟨ho, rfl⟩⟩
  · exact ⟨b, hl, hb, .inr ⟨hne, ho, rfl⟩⟩

/-- A write at another offset reaches the other register. -/
theorem State.PortHolds.write_of_ne {s t : State} {off off' : Nat} {v w : Word} (h : s.PortHolds off v)
    (hne : off' ≠ off) (ht : s.regWrite32 off' w = .ok t) : t.PortHolds off v := by
  obtain ⟨b, hl, hb, hreg⟩ := h
  obtain ⟨_, _, _, ⟨ho', rfl⟩ | ⟨_, ho', rfl⟩⟩ := State.regWrite32_ok ht
  · have hup : off ≠ s.params.layout.offUp := fun ho => hne (ho'.trans ho.symm)
    exact ⟨b, hl, hb, .inr (hreg.resolve_left fun ⟨ho, _⟩ => hup ho)⟩
  · have hdown : off ≠ s.params.layout.offDown := fun ho => hne (ho'.trans ho.symm)
    exact ⟨b, hl, hb, .inl (hreg.resolve_right fun ⟨_, ho, _⟩ => hdown ho)⟩

/-- Settles O50: the written value stands at its offset, and a write at another offset leaves it there. -/
theorem portReadAfterWrites : Obligations.PortReadAfterWrites := by
  intro s t off v h
  have hholds := State.portHolds_of_write h
  exact ⟨⟨_, hholds.read, rfl, rfl⟩, fun off' w t' hne h' => ⟨_, (hholds.write_of_ne hne h').read⟩⟩

end Sys2Proof.Machine

/-! ### Which command has a step where -/

namespace Sys2Proof.Machine

/-- The table of 44_lifecycle.md R127: by which name a command is refused in a lifecycle state; none where it has a
step. -/
def wrongStateRefusal : Instr → LState → Option Refusal
  | .clkper _, _ => none
  | .config _ _, .unattached => some .configUnattached
  | .config _ _, .attached => none
  | .config _ _, .detached => some .configDetached
  | .capture _, .unattached => some .captureUnattached
  | .capture _, .attached => none
  | .capture _, .detached => some .captureDetached
  | .attach, .unattached => none
  | .attach, .attached => some .attachAttached
  | .attach, .detached => some .attachDetached
  | .detach, .unattached => some .detachUnattached
  | .detach, .attached => none
  | .detach, .detached => some .doubleDetach

/-- `CONFIG` and `CAPTURE` have their step in the same state. -/
theorem wrongStateRefusal_channel_iff (d p x : Word) (l : LState) :
    (wrongStateRefusal (.config d p) l = none ↔ l = .attached) ∧
    (wrongStateRefusal (.capture x) l = none ↔ l = .attached) := by
  cases l <;> simp [wrongStateRefusal]

theorem wrongStateRefusal_lifecycle_iff (l : LState) :
    (wrongStateRefusal .attach l = none ↔ l = .unattached) ∧
    (wrongStateRefusal .detach l = none ↔ l = .attached) := by
  cases l <;> simp [wrongStateRefusal]

theorem exec_config_of_channelClock_error {s : State} {r : Refusal} (d p : Word)
    (h : s.channelClock .configUnattached .configDetached = .error (.refused r)) :
    exec (.config d p) s = .refused r := by
  simp only [exec, execConfig, h, Stop.outcome]

theorem exec_capture_of_channelClock_error {s : State} {r : Refusal} (x : Word)
    (h : s.channelClock .captureUnattached .captureDetached = .error (.refused r)) :
    exec (.capture x) s = .refused r := by
  simp only [exec, execCapture, h, Stop.outcome]

/-- A command in a state that is not its own is refused, in every state (R91, R102, R118, R123, R125). -/
theorem exec_of_wrongState {i : Instr} {s : State} {r : Refusal} (h : wrongStateRefusal i s.lstate = some r) :
    exec i s = .refused r := by
  cases i with
  | clkper _ => exact nomatch h
  | config d p =>
    apply exec_config_of_channelClock_error
    rcases hl : s.lstate <;> rw [hl] at h <;> cases h
    · exact State.channelClock_error.mpr (.inl ⟨hl, rfl⟩)
    · exact State.channelClock_error.mpr (.inr (.inl ⟨hl, rfl⟩))
  | capture x =>
    apply exec_capture_of_channelClock_error
    rcases hl : s.lstate <;> rw [hl] at h <;> cases h
    · exact State.channelClock_error.mpr (.inl ⟨hl, rfl⟩)
    · exact State.channelClock_error.mpr (.inr (.inl ⟨hl, rfl⟩))
  | attach =>
    rcases hl : s.lstate <;> rw [hl] at h <;> cases h <;> simp only [exec, execAttach, hl]
  | detach =>
    rcases hl : s.lstate <;> rw [hl] at h <;> cases h <;> simp only [exec, execDetach, hl]

/-- Settles O39: the rows of the table. -/
theorem wrongStateRefused : Obligations.WrongStateRefused := by
  intro s d p x
  have hrow {i : Instr} {l : LState} {r : Refusal} (hl : s.lstate = l) (hr : wrongStateRefusal i l = some r) :
      exec i s = .refused r := exec_of_wrongState (hl ▸ hr)
  exact ⟨fun hl => ⟨hrow hl rfl, hrow hl rfl, hrow hl rfl⟩, fun hl => hrow hl rfl,
    fun hl => ⟨hrow hl rfl, hrow hl rfl, hrow hl rfl, hrow hl rfl⟩⟩

/-- In its invariant an attached converter is ready for `CONFIG` and `CAPTURE`. -/
theorem State.Inv.ready {s : State} (h : s.Inv) (hl : s.lstate = .attached) : ∃ c b, s.Ready c b := by
  obtain ⟨⟨hattached, _⟩, _, _⟩ := h
  obtain ⟨c, b, _, hc, hb, _, _, _, _, _, ho⟩ := hattached hl
  exact ⟨c, b, hl, hc, hb, ho⟩

/-- A command in its own state has a step. -/
theorem exec_of_rightState {i : Instr} {s : State} (hs : s.Inv) (h : wrongStateRefusal i s.lstate = none) :
    ∃ t, exec i s = .next t := by
  cases i with
  | clkper r =>
    by_cases hr : r = 0
    · exact ⟨_, hr ▸ exec_clkper_zero s⟩
    · exact ⟨_, exec_clkper_of_ne_zero s hr⟩
  | config d p =>
    obtain ⟨c, b, hready⟩ := hs.ready ((wrongStateRefusal_channel_iff d p 0 _).1.mp h)
    by_cases hd : DutyInvalid c d
    · exact ⟨_, exec_config_of_invalid p hready.attached hready.clock hd⟩
    · exact ⟨_, exec_config_of_valid p hready hd⟩
  | capture x =>
    obtain ⟨c, b, hready⟩ := hs.ready ((wrongStateRefusal_channel_iff 0 0 x _).2.mp h)
    exact ⟨_, exec_capture_of_ready x hready⟩
  | attach => exact ⟨_, exec_attach_of_unattached ((wrongStateRefusal_lifecycle_iff _).1.mp h)⟩
  | detach => exact ⟨_, exec_detach_of_attached ((wrongStateRefusal_lifecycle_iff _).2.mp h)⟩

/-- In the invariant the table decides whether a command has a step. -/
theorem exec_next_iff {i : Instr} {s : State} (hs : s.Inv) :
    (∃ t, exec i s = .next t) ↔ wrongStateRefusal i s.lstate = none := by
  refine ⟨?_, exec_of_rightState hs⟩
  rintro ⟨t, ht⟩
  rcases hr : wrongStateRefusal i s.lstate with _ | r
  · rfl
  · exact nomatch (exec_of_wrongState hr).symm.trans ht

/-- In the invariant a command has a step or is refused as the table says; it does not fault. -/
theorem exec_total {i : Instr} {s : State} (hs : s.Inv) :
    (∃ t, exec i s = .next t) ∨ ∃ r, wrongStateRefusal i s.lstate = some r ∧ exec i s = .refused r := by
  rcases hr : wrongStateRefusal i s.lstate with _ | r
  · exact .inl (exec_of_rightState hs hr)
  · exact .inr ⟨r, rfl, exec_of_wrongState hr⟩

/-- Settles O38: the table's rows, read for a state in its invariant. -/
theorem commandTable : Obligations.CommandTable := by
  intro s hs
  refine ⟨fun r => (exec_next_iff hs).mpr rfl, fun d p => ?config, fun x => ?capture, ?attach, ?detach,
    fun i hi => ?refused⟩
  case config => exact (exec_next_iff hs).trans (wrongStateRefusal_channel_iff d p 0 _).1
  case capture => exact (exec_next_iff hs).trans (wrongStateRefusal_channel_iff 0 0 x _).2
  case attach => exact (exec_next_iff hs).trans (wrongStateRefusal_lifecycle_iff _).1
  case detach => exact (exec_next_iff hs).trans (wrongStateRefusal_lifecycle_iff _).2
  case refused =>
    obtain ⟨r, _, hr⟩ := (exec_total hs).resolve_left hi
    exact ⟨r, hr⟩

/-- The refusals of the register port and of the memory (20_memory.md R33; 40_register_interface.md R73, R74). -/
def Refusal.OfPort (r : Refusal) : Prop :=
  r = .portNotAttached ∨ (∃ off, r = .undefinedOffset off) ∨ ∃ a, r = .undefinedAddress a

/-- The table names no refusal of the port. -/
theorem not_ofPort_of_wrongStateRefusal {i : Instr} {l : LState} {r : Refusal} (h : wrongStateRefusal i l = some r) :
    ¬ r.OfPort := by
  cases i with
  | clkper _ => exact nomatch h
  | config d p => cases l <;> cases h <;> simp [Refusal.OfPort]
  | capture x => cases l <;> cases h <;> simp [Refusal.OfPort]
  | attach => cases l <;> cases h <;> simp [Refusal.OfPort]
  | detach => cases l <;> cases h <;> simp [Refusal.OfPort]

theorem exec_ne_refused_ofPort {i : Instr} {s : State} {r : Refusal} (hs : s.Inv) (hr : r.OfPort) :
    exec i s ≠ .refused r := by
  intro h
  rcases exec_total (i := i) hs with ⟨t, ht⟩ | ⟨r', htable, hr'⟩
  · exact nomatch ht.symm.trans h
  · cases hr'.symm.trans h
    exact not_ofPort_of_wrongStateRefusal htable hr

/-- Settles O51: what is refused is refused by the table. -/
theorem commandsUsePortLegally : Obligations.CommandsUsePortLegally := by
  intro i s hs
  exact ⟨exec_ne_refused_ofPort hs (.inl rfl), fun off => exec_ne_refused_ofPort hs (.inr (.inl ⟨off, rfl⟩)),
    fun a => exec_ne_refused_ofPort hs (.inr (.inr ⟨a, rfl⟩))⟩

end Sys2Proof.Machine

/-! ### Reset, 70_reset_and_hazards.md -/

namespace Sys2Proof.Machine

theorem State.resetWith_inv (p : Config.Params) (u d : Word) : (State.resetWith p u d).Inv :=
  ⟨⟨nofun, fun _ => ⟨rfl, rfl, rfl⟩⟩, nofun, rfl⟩

theorem State.resetWith_resourcesBalanced (p : Config.Params) (u d : Word) :
    (State.resetWith p u d).ResourcesBalanced :=
  ⟨rfl, rfl, rfl, rfl, rfl⟩

/-- Settles O52: each field of a reset state is as written. -/
theorem resetLeaves : Obligations.ResetLeaves :=
  fun _ _ _ => ⟨rfl, rfl, rfl, rfl, rfl, rfl, rfl, rfl, _, _, _, rfl⟩

/-- Settles O54: nothing is held, nothing has been recorded, and nothing has responded. -/
theorem resetHasInvariant : Obligations.ResetHasInvariant :=
  fun p u d => ⟨State.resetWith_inv p u d, State.resetWith_resourcesBalanced p u d, State.resetWith_inv _ _ _,
    State.resetWith_resourcesBalanced _ _ _⟩

/-- Settles O53: the table's column for `Unattached`, where every reset state stands. -/
theorem firstCommandAfterReset : Obligations.FirstCommandAfterReset := by
  intro p u d i
  have hl : (State.resetWith p u d).lstate = .unattached := rfl
  rw [exec_next_iff (State.resetWith_inv p u d), hl]
  cases i <;> simp [wrongStateRefusal]

end Sys2Proof.Machine

/-! ### What a command changes -/

namespace Sys2Proof.Machine

/-- A command that has a step is the attach sequence, the teardown, or one that touches no control state. -/
theorem exec_next_cases {i : Instr} {s t : State} (h : exec i s = .next t) :
    (i = .attach ∧ s.lstate = .unattached ∧ t = s.attachSequence) ∨
    (i = .detach ∧ s.lstate = .attached ∧
      t = s.teardown.respond (if s.plat.detachFault = true then .err .detachError else .ok .unit)) ∨
    (i ≠ .attach ∧ i ≠ .detach ∧ ∃ u d evs r, (∀ e ∈ evs, e.OfRegisters) ∧
      t = State.respond r { s with up := u, down := d, trace := s.trace ++ evs }) := by
  by_cases ha : i = .attach
  · subst ha
    exact .inl ⟨rfl, execAttach_next h⟩
  by_cases hd : i = .detach
  · subst hd
    exact .inr (.inl ⟨rfl, execDetach_next h⟩)
  obtain ⟨u, d, evs, r, rfl, hevs, _⟩ := exec_next_channel h ha hd
  exact .inr (.inr ⟨ha, hd, u, d, evs, r, hevs, rfl⟩)

/-- The attach sequence touches neither the registers nor the inputs, and answers once. -/
theorem State.attachSequence_frame (s : State) :
    ∃ c b n l evs r, s.attachSequence = State.respond r { s with
      clkNs := c, base := b, regionLen := n, lstate := l, trace := s.trace ++ evs } := by
  rcases s.attachSequence_cases with ⟨_, hs⟩ | ⟨_, _, _, _, hs⟩ | ⟨_, _, _, _, _, hs⟩ | ⟨_, _, _, _, _, _, hs⟩ <;>
    rw [hs]
  case inl => exact ⟨_, _, _, _, [], _, by rw [List.append_nil]⟩
  case inr.inl => exact ⟨_, _, _, _, _, _, rfl⟩
  case inr.inr.inl => exact ⟨_, _, _, _, _, _, rfl⟩
  case inr.inr.inr => exact ⟨_, _, _, _, _, _, rfl⟩

/-- What every command that has a step leaves unchanged. -/
theorem exec_next_frame {i : Instr} {s t : State} (h : exec i s = .next t) :
    ∃ u d c b n l evs r, t = State.respond r { s with
      up := u, down := d, clkNs := c, base := b, regionLen := n, lstate := l, trace := s.trace ++ evs } := by
  rcases exec_next_cases h with ⟨_, _, rfl⟩ | ⟨_, _, rfl⟩ | ⟨_, _, u, d, evs, r, _, rfl⟩
  · obtain ⟨c, b, n, l, evs, r, hs⟩ := s.attachSequence_frame
    exact ⟨s.up, s.down, c, b, n, l, evs, r, hs⟩
  · rw [State.teardown_eq]
    exact ⟨_, _, _, _, _, _, _, _, rfl⟩
  · exact ⟨u, d, _, _, _, _, evs, r, rfl⟩

/-- Settles O42: every command that has a step ends in one response. -/
theorem commandRespondsOnce : Obligations.CommandRespondsOnce := by
  intro i s t h
  obtain ⟨_, _, _, _, _, _, evs, r, rfl⟩ := exec_next_frame h
  exact ⟨rfl, ⟨r, rfl⟩, ⟨evs, rfl⟩, rfl, rfl, rfl, rfl⟩

/-- Settles O43: the two commands left out are the only ones that touch the control state. -/
theorem controlStateWriters : Obligations.ControlStateWriters := by
  intro i s t h ha hd
  rcases exec_next_cases h with ⟨ha', _⟩ | ⟨hd', _⟩ | ⟨_, _, _, _, _, _, _, rfl⟩
  · exact absurd ha' ha
  · exact absurd hd' hd
  · exact ⟨rfl, rfl, rfl, rfl⟩

/-- Settles O46: each command's own inversion lemma names the only error it answers with. -/
theorem errorKindsByCommand : Obligations.ErrorKindsByCommand := by
  intro i s t k h hk
  cases i with
  | clkper r =>
    obtain ⟨x, rfl, hx⟩ := execClkper_next h
    have hxk : x = .err k := List.singleton_inj.mp (List.append_cancel_left hk)
    obtain ⟨rfl, rfl⟩ := hx k hxk
    exact .inr (.inr (.inl ⟨rfl, .inl rfl⟩))
  | config d p =>
    obtain ⟨_, c, _, ⟨_, rfl⟩ | ⟨_, u, t', ht, _, rfl⟩⟩ := execConfig_next h
    · cases List.append_cancel_left hk
      exact .inl ⟨rfl, d, p, rfl⟩
    · obtain ⟨u', d', rfl⟩ := State.writeCounts_frame ht
      exact nomatch List.append_cancel_left hk
  | capture x =>
    obtain ⟨_, c, u, d, t', _, ht, h'⟩ := execCapture_next h
    obtain rfl := State.readCounts_frame ht
    rcases h' with ⟨_, rfl⟩ | ⟨_, rfl⟩
    · cases List.append_cancel_left hk
      exact .inr (.inl ⟨rfl, x, rfl⟩)
    · exact nomatch List.append_cancel_left hk
  | attach =>
    rcases attachAllOrNothing s t h with ⟨_, _, _, ⟨hr, _⟩ | ⟨hr | hr, _⟩⟩ <;>
      cases List.append_cancel_left (hr.symm.trans hk)
    · exact .inr (.inr (.inr (.inl ⟨rfl, rfl⟩)))
    · exact .inr (.inr (.inl ⟨rfl, .inr rfl⟩))
  | detach =>
    obtain ⟨_, rfl⟩ := execDetach_next h
    rw [State.respond_responses, State.teardown_responses] at hk
    have hxk := List.singleton_inj.mp (List.append_cancel_left hk)
    split at hxk <;> cases hxk
    exact .inr (.inr (.inr (.inr ⟨rfl, rfl⟩)))

/-! The records: what a command does to a state with other records, from Laws/Records.lean. -/

/-- The second outcome is the first one with other records: the same stop, or the same next state with the same events
and the same response added to the other records. -/
def SameButRecords (s : State) (tr : List Event) (n : Nat) (rs : List Response) :
    Host.Outcome State Fault Refusal → Host.Outcome State Fault Refusal → Prop
  | .next t, o => ∃ evs r, t.trace = s.trace ++ evs ∧ t.responses = s.responses ++ [r] ∧
      o = .next (t.withRecords (tr ++ evs) (n + 1) (rs ++ [r]))
  | .fault f, o => o = .fault f
  | .refused e, o => o = .refused e

section
variable {s : State} {tr : List Event} {n : Nat} {rs : List Response}

theorem sameButRecords_stop (e : Stop) : SameButRecords s tr n rs e.outcome e.outcome := by
  cases e with
  | fault f => exact rfl
  | refused r => exact rfl

/-- A command that ends with a response has added some events before it. -/
theorem sameButRecords_respond {m : State} {evs : List Event} (r : Response) (htr : m.trace = s.trace ++ evs)
    (hrs : m.responses = s.responses) :
    SameButRecords s tr n rs (.next (m.respond r)) (.next ((m.withRecords (tr ++ evs) n rs).respond r)) :=
  ⟨evs, r, htr, by rw [State.respond_responses, hrs], rfl⟩

/-- A command that answers at once has added none. -/
theorem sameButRecords_respond_self (r : Response) :
    SameButRecords s tr n rs (.next (s.respond r)) (.next ((s.withRecords tr n rs).respond r)) :=
  ⟨[], r, (List.append_nil _).symm, rfl, by rw [List.append_nil]; rfl⟩

theorem execClkper_withRecords (r : Word) :
    SameButRecords s tr n rs (execClkper r s) (execClkper r (s.withRecords tr n rs)) := by
  unfold execClkper
  rcases clockPeriodNs r with k | q
  · exact sameButRecords_respond_self _
  · exact sameButRecords_respond_self _

theorem execConfig_withRecords (d p : Word) :
    SameButRecords s tr n rs (execConfig d p s) (execConfig d p (s.withRecords tr n rs)) := by
  unfold execConfig
  rw [State.channelClock_withRecords]
  rcases s.channelClock _ _ with e | c
  · exact sameButRecords_stop e
  dsimp only
  split
  · exact sameButRecords_respond_self _
  · rw [State.writeCounts_withRecords]
    rcases ht : s.writeCounts _ _ with e | t
    · exact sameButRecords_stop e
    · obtain ⟨u', d', rfl⟩ := State.writeCounts_frame ht
      dsimp only
      rw [List.append_assoc tr, List.append_assoc tr]
      exact sameButRecords_respond _ rfl rfl

theorem execCapture_withRecords (x : Word) :
    SameButRecords s tr n rs (execCapture x s) (execCapture x (s.withRecords tr n rs)) := by
  unfold execCapture
  rw [State.channelClock_withRecords]
  rcases s.channelClock _ _ with e | c
  · exact sameButRecords_stop e
  dsimp only
  rw [State.readCounts_withRecords]
  rcases ht : s.readCounts with e | ⟨u, d, t⟩
  · exact sameButRecords_stop e
  obtain rfl := State.readCounts_frame ht
  dsimp only
  rw [List.append_assoc tr, List.append_assoc tr]
  split
  · exact sameButRecords_respond _ rfl rfl
  · exact sameButRecords_respond _ rfl rfl

/-- Every test of the attach sequence reads the same in both states. -/
theorem State.attachSequence_withRecords :
    SameButRecords s tr n rs (.next s.attachSequence) (.next (s.withRecords tr n rs).attachSequence) := by
  rcases s.attachSequence_cases with ⟨hm, _⟩ | ⟨_, _, hm, hc, _⟩ | ⟨_, _, hm, hc, hr, _⟩ | ⟨_, _, _, hm, hc, hp, _⟩ <;>
    have hm' := (s.mappable_withRecords tr n rs).trans hm
  case inl =>
    rw [State.attachSequence_of_unmappable hm, State.attachSequence_of_unmappable hm']
    exact sameButRecords_respond_self _
  case inr.inl =>
    rw [State.attachSequence_of_no_clock hm hc, State.attachSequence_of_no_clock hm' hc]
    exact sameButRecords_respond _ rfl rfl
  case inr.inr.inl =>
    rw [State.attachSequence_of_no_rate hm hc hr, State.attachSequence_of_no_rate hm' hc hr]
    exact sameButRecords_respond _ rfl rfl
  case inr.inr.inr =>
    obtain ⟨r, hr, hr₀, _⟩ := attachPeriod_ok.mp hp
    rw [State.attachSequence_of_rate hm hc hr hr₀, State.attachSequence_of_rate hm' hc hr hr₀]
    exact sameButRecords_respond _ rfl rfl

theorem execAttach_withRecords :
    SameButRecords s tr n rs (execAttach s) (execAttach (s.withRecords tr n rs)) := by
  unfold execAttach
  rw [State.withRecords_lstate]
  rcases s.lstate with _ | _ | _
  · exact State.attachSequence_withRecords
  · exact rfl
  · exact rfl

theorem execDetach_withRecords :
    SameButRecords s tr n rs (execDetach s) (execDetach (s.withRecords tr n rs)) := by
  unfold execDetach
  rw [State.withRecords_lstate]
  rcases s.lstate with _ | _ | _
  · exact rfl
  · dsimp only
    rw [State.teardown_eq, State.teardown_eq, State.withRecords_plat]
    exact sameButRecords_respond _ rfl rfl
  · exact rfl

theorem exec_withRecords (i : Instr) :
    SameButRecords s tr n rs (exec i s) (exec i (s.withRecords tr n rs)) := by
  cases i with
  | clkper r => exact execClkper_withRecords r
  | config d p => exact execConfig_withRecords d p
  | capture x => exact execCapture_withRecords x
  | attach => exact execAttach_withRecords
  | detach => exact execDetach_withRecords

end

/-- Settles O45: the three outcomes of the comparison. -/
theorem recordsAreNotRead : Obligations.RecordsAreNotRead := by
  intro i s tr n rs
  have hsame := exec_withRecords (s := s) (tr := tr) (n := n) (rs := rs) i
  refine ⟨fun t ht => ?next, fun f hf => ?fault, fun e he => ?refused⟩
  case next => rwa [ht] at hsame
  case fault => rwa [hf] at hsame
  case refused => rwa [he] at hsame

end Sys2Proof.Machine

/-! ### What a step changes -/

namespace Sys2Proof.Machine

/-- Settles O40: only `ATTACH` and `DETACH` leave their lifecycle state, and only for the next one. -/
theorem lifecycleTransitions : Obligations.LifecycleTransitions := by
  intro s t h
  rcases step_next h with ⟨_, rfl⟩ | ⟨l, rest, _, rfl⟩ | ⟨cw, plat, mid, rest, _, ⟨_, _, rfl⟩ | ⟨i, _, hi⟩⟩
  case inl => exact .inl rfl
  case inr.inl =>
    rcases State.latchBetweenCommands_cases l { s with pending := rest } with ⟨_, ht⟩ | ⟨_, ht⟩ <;> rw [ht]
    · exact .inl rfl
    · exact .inl rfl
  case inr.inr.inl => exact .inl rfl
  case inr.inr.inr =>
    rcases exec_next_cases hi with ⟨_, hl, rfl⟩ | ⟨_, hl, rfl⟩ | ⟨_, _, _, _, _, _, _, rfl⟩
    · obtain ⟨_, _, _, ⟨_, ht, _⟩ | ⟨_, ht, _⟩⟩ := attachAllOrNothing _ _ (exec_attach_of_unattached hl)
      · exact .inr (.inl ⟨hl, ht⟩)
      · exact .inl (ht.trans hl.symm)
    · exact .inr (.inr ⟨hl, rfl⟩)
    · exact .inl rfl

theorem State.admittedMid_of_latch_none {s : State} (h : s.params.latch = .none) : s.admittedMid = [] := by
  simp [State.admittedMid, h]

/-- Without a latch no command but `CONFIG` changes a register. -/
theorem exec_next_registers {i : Instr} {s t : State} (h : exec i s = .next t) (hi : ∀ d p, i ≠ .config d p)
    (hm : s.admittedMid = []) : t.up = s.up ∧ t.down = s.down := by
  by_cases ha : i = .attach
  · subst ha
    obtain ⟨_, hup, hdown, _⟩ := attachAllOrNothing s t h
    exact ⟨hup, hdown⟩
  by_cases hd : i = .detach
  · subst hd
    obtain ⟨_, rfl⟩ := execDetach_next h
    exact ⟨rfl, rfl⟩
  obtain ⟨u, d, _, _, rfl, _, hregs⟩ := exec_next_channel h ha hd
  exact hregs hi hm

/-- Settles O44: under `LATCH = none` a latch is dropped and none is admitted. -/
theorem registersChangeOnlyByConfig : Obligations.RegistersChangeOnlyByConfig := by
  intro s t hlatch h hnext
  rcases step_next h with ⟨_, rfl⟩ | ⟨l, rest, _, rfl⟩ | ⟨cw, plat, mid, rest, hp, ⟨_, _, rfl⟩ | ⟨i, hi, hexec⟩⟩
  case inl => exact ⟨rfl, rfl⟩
  case inr.inl =>
    rcases State.latchBetweenCommands_cases l { s with pending := rest } with ⟨_, ht⟩ | ⟨hne, _⟩
    · rw [ht]
      exact ⟨rfl, rfl⟩
    · exact absurd hlatch hne
  case inr.inr.inl => exact ⟨rfl, rfl⟩
  case inr.inr.inr =>
    have hnotConfig (d p : Word) : i ≠ .config d p := by
      rintro rfl
      exact hnext cw plat mid rest d p hp hi
    have hregisters := exec_next_registers hexec hnotConfig (State.admittedMid_of_latch_none hlatch)
    exact hregisters

end Sys2Proof.Machine

/-! ### The invariant of 10_state.md -/

namespace Sys2Proof.Machine

/-- A response keeps the invariant: index and responses grow together (R19). -/
theorem State.Inv.respond {s : State} (h : s.Inv) (r : Response) : (s.respond r).Inv := by
  obtain ⟨hlifecycle, hrange, hcount⟩ := h
  refine ⟨hlifecycle, hrange, ?_⟩
  rw [State.CountsResponses, State.respond_cidx, State.respond_responses, List.length_append, hcount,
    List.length_singleton]

theorem nsPerS_div_toNat_le (r : Word) : (nsPerS / r).toNat ≤ 1_000_000_000 := by
  rw [BitVec.toNat_udiv, nsPerS_toNat]
  exact Nat.div_le_self _ _

/-- What `ATTACH` constructs is consistent, for a layout that passed its validation (R13, R15, R113). -/
theorem State.Inv.construct {s : State} (h : s.Inv) {q : Word} {b n : Nat} (tr : List Event)
    (hq : q.toNat ≤ 1_000_000_000) (hlayout : LayoutOK s.params.layout n) :
    State.Inv { s with
      clkNs := some q, base := some b, regionLen := some n, lstate := .attached, trace := tr } := by
  obtain ⟨_, _, hcount⟩ := h
  refine ⟨⟨fun _ => ⟨q, b, n, rfl, rfl, rfl, hlayout⟩, fun hne => absurd rfl hne⟩, ?_, hcount⟩
  rintro c hc
  cases hc
  exact hq

/-- The attach sequence keeps the invariant, in each of its outcomes. -/
theorem State.Inv.attachSequence {s : State} (h : s.Inv) : s.attachSequence.Inv := by
  rcases s.attachSequence_cases with ⟨_, hs⟩ | ⟨_, _, _, _, hs⟩ | ⟨_, _, _, _, _, hs⟩ | ⟨_, _, _, hm, _, hp, hs⟩ <;>
    rw [hs]
  case inl => exact h.respond _
  case inr.inl => exact State.Inv.respond h _
  case inr.inr.inl => exact State.Inv.respond h _
  case inr.inr.inr =>
    obtain ⟨_, _, hlayout⟩ := State.mappable_some.mp hm
    obtain ⟨r, _, _, rfl⟩ := attachPeriod_ok.mp hp
    exact (h.construct _ (nsPerS_div_toNat_le r) hlayout).respond _

/-- The teardown leaves nothing held (R121, R122). -/
theorem State.Inv.teardown {s : State} (h : s.Inv) : s.teardown.Inv := by
  obtain ⟨_, _, hcount⟩ := h
  exact ⟨⟨nofun, fun _ => ⟨rfl, rfl, rfl⟩⟩, nofun, hcount⟩

theorem State.Inv.exec {i : Instr} {s t : State} (h : s.Inv) (ht : exec i s = .next t) : t.Inv := by
  rcases exec_next_cases ht with ⟨_, _, rfl⟩ | ⟨_, _, rfl⟩ | ⟨_, _, _, _, _, _, _, rfl⟩
  · exact h.attachSequence
  · exact h.teardown.respond _
  · exact State.Inv.respond h _

/-- Settles O55: taking an input and a latch touch nothing the invariant speaks of. -/
theorem stepKeepsInvariant : Obligations.StepKeepsInvariant := by
  intro s t h ht
  rcases step_next ht with ⟨_, rfl⟩ | ⟨l, rest, _, rfl⟩ | ⟨cw, plat, mid, rest, _, ⟨_, _, rfl⟩ | ⟨i, _, hi⟩⟩
  case inl => exact h
  case inr.inl =>
    rcases State.latchBetweenCommands_cases l { s with pending := rest } with ⟨_, ht⟩ | ⟨_, ht⟩ <;> rw [ht]
    · exact h
    · exact h
  case inr.inr.inl => exact State.Inv.respond h _
  case inr.inr.inr =>
    have htaken : State.Inv { s with pending := rest, plat := plat, midLatches := mid } := h
    exact htaken.exec hi

/-! The account of resources. -/

/-- Events that leave the account as it is: what they acquire they release, and none belongs to the registration or to
`DETACH`. -/
def LeavesAccount (evs : List Event) : Prop :=
  ReleasesAll evs ∧ .chanRegister ∉ evs ∧ .chanUnregister ∉ evs

theorem leavesAccount_rollback_mapping : LeavesAccount [.mapRegion, .unmapRegion] :=
  ⟨releasesAll_rollback_mapping, by decide, by decide⟩

theorem leavesAccount_rollback_clock (rate : Option Word) :
    LeavesAccount [.mapRegion, .clkAcquire, .clkGetRate rate, .clkRelease, .unmapRegion] :=
  ⟨releasesAll_rollback_clock rate, by simp, by simp⟩

/-- Accesses and latches acquire and release nothing. -/
theorem leavesAccount_of_ofRegisters {evs : List Event} (h : ∀ e ∈ evs, e.OfRegisters) : LeavesAccount evs := by
  have hnot {e : Event} (he : ¬ e.OfRegisters) : e ∉ evs := fun hmem => he (h e hmem)
  have hmap : .mapRegion ∉ evs := hnot (by simp [Event.OfRegisters])
  have hunmap : .unmapRegion ∉ evs := hnot (by simp [Event.OfRegisters])
  have hacquire : .clkAcquire ∉ evs := hnot (by simp [Event.OfRegisters])
  have hrelease : .clkRelease ∉ evs := hnot (by simp [Event.OfRegisters])
  refine ⟨⟨?mapping, ?clock, hnot (by simp [Event.OfRegisters])⟩, hnot (by simp [Event.OfRegisters]),
    hnot (by simp [Event.OfRegisters])⟩
  case mapping => rw [List.count_eq_zero_of_not_mem hmap, List.count_eq_zero_of_not_mem hunmap]
  case clock => rw [List.count_eq_zero_of_not_mem hacquire, List.count_eq_zero_of_not_mem hrelease]

/-- Within one lifecycle state such events keep the account balanced. -/
theorem State.ResourcesBalanced.append {s t : State} {evs : List Event} (h : s.ResourcesBalanced)
    (hl : t.lstate = s.lstate) (htr : t.trace = s.trace ++ evs) (hevs : LeavesAccount evs) : t.ResourcesBalanced := by
  obtain ⟨hmapping, hclock, hregistration, hdisabled, hunregistered⟩ := h
  obtain ⟨⟨hmapEvs, hclockEvs, hdisable⟩, hregister, hunregister⟩ := hevs
  have hheld : t.held = s.held := by simp only [State.held, hl]
  have hdetached : t.detachCount = s.detachCount := by simp only [State.detachCount, hl]
  simp only [State.ResourcesBalanced, htr, hheld, hdetached, List.count_append,
    List.count_eq_zero_of_not_mem hdisable, List.count_eq_zero_of_not_mem hregister,
    List.count_eq_zero_of_not_mem hunregister]
  omega

/-- The construction of the channel takes one of each resource (R110, R115). -/
theorem State.ResourcesBalanced.attached {s t : State} {rate : Option Word} (h : s.ResourcesBalanced)
    (hs : s.lstate = .unattached) (ht : t.lstate = .attached)
    (htr : t.trace = s.trace ++ [.mapRegion, .clkAcquire, .clkGetRate rate, .chanRegister]) : t.ResourcesBalanced := by
  obtain ⟨hmapping, hclock, hregistration, hdisabled, hunregistered⟩ := h
  simp only [State.held, State.detachCount, hs] at hmapping hclock hregistration hdisabled hunregistered
  simp [State.ResourcesBalanced, State.held, State.detachCount, *]

/-- The teardown gives one of each back (R121). -/
theorem State.ResourcesBalanced.teardown {s : State} (h : s.ResourcesBalanced) (hs : s.lstate = .attached) :
    s.teardown.ResourcesBalanced := by
  obtain ⟨hmapping, hclock, hregistration, hdisabled, hunregistered⟩ := h
  simp only [State.held, State.detachCount, hs] at hmapping hclock hregistration hdisabled hunregistered
  simp [State.ResourcesBalanced, State.held, State.detachCount, *]

/-- The attach sequence keeps the account: its failures have released what they acquired (R116). -/
theorem State.ResourcesBalanced.attachSequence {s : State} (h : s.ResourcesBalanced) (hl : s.lstate = .unattached) :
    s.attachSequence.ResourcesBalanced := by
  rcases s.attachSequence_cases with ⟨_, hs⟩ | ⟨_, _, _, _, hs⟩ | ⟨_, _, _, _, _, hs⟩ | ⟨_, _, _, _, _, _, hs⟩ <;>
    rw [hs]
  case inl => exact h
  case inr.inl => exact h.append rfl rfl leavesAccount_rollback_mapping
  case inr.inr.inl => exact h.append rfl rfl (leavesAccount_rollback_clock _)
  case inr.inr.inr => exact h.attached hl rfl rfl

theorem State.ResourcesBalanced.exec {i : Instr} {s t : State} (h : s.ResourcesBalanced) (ht : exec i s = .next t) :
    t.ResourcesBalanced := by
  rcases exec_next_cases ht with ⟨_, hl, rfl⟩ | ⟨_, hl, rfl⟩ | ⟨_, _, _, _, _, _, hevs, rfl⟩
  · exact h.attachSequence hl
  · exact h.teardown hl
  · exact h.append rfl rfl (leavesAccount_of_ofRegisters hevs)

theorem leavesAccount_latch (u d : Word) : LeavesAccount [.latch u d] :=
  leavesAccount_of_ofRegisters (by simp [Event.OfRegisters])

/-- Settles O56: outside a command the only event is that of a latch. -/
theorem stepKeepsResourcesBalanced : Obligations.StepKeepsResourcesBalanced := by
  intro s t h ht
  rcases step_next ht with ⟨_, rfl⟩ | ⟨l, rest, _, rfl⟩ | ⟨cw, plat, mid, rest, _, ⟨_, _, rfl⟩ | ⟨i, _, hi⟩⟩
  case inl => exact h
  case inr.inl =>
    rcases State.latchBetweenCommands_cases l { s with pending := rest } with ⟨_, ht⟩ | ⟨_, ht⟩ <;> rw [ht]
    · exact h
    · exact h.append rfl rfl (leavesAccount_latch l.up l.down)
  case inr.inr.inl => exact h
  case inr.inr.inr =>
    have htaken : State.ResourcesBalanced { s with pending := rest, plat := plat, midLatches := mid } := h
    exact htaken.exec hi

/-! ### Runs -/

/-- What every step keeps holds at the end of a run; and a run that faults has reached a state with it whose step
faults. -/
theorem run_of_step_keeps {P : State → Prop} (hkeeps : ∀ s t, P s → step s = .next t → P t) (k : Nat) {s : State}
    (hs : P s) :
    (∀ t, Host.Core.run Sys2Proof.core k s = .next t → P t) ∧
    (∀ f, Host.Core.run Sys2Proof.core k s = .fault f → ∃ s', P s' ∧ step s' = .fault f) := by
  induction k generalizing s with
  | zero => exact ⟨fun t ht => Host.Outcome.next.inj ht ▸ hs, nofun⟩
  | succ k ih =>
    rcases h : step s with t | f | e
    · rw [run_next k h]
      exact ih (hkeeps s t hs h)
    · rw [run_fault k h]
      exact ⟨nofun, fun _ hf => ⟨s, hs, h.trans hf⟩⟩
    · rw [run_refused k h]
      exact ⟨nofun, nofun⟩

/-- Settles O41: no transition leads out of `Detached`. -/
theorem detachedIsTerminal : Obligations.DetachedIsTerminal := by
  intro k s t hs ht
  have hkeeps (s t : State) (hs : s.lstate = .detached) (h : step s = .next t) : t.lstate = .detached := by
    rcases lifecycleTransitions s t h with hl | ⟨hl, _⟩ | ⟨hl, _⟩
    · exact hl.trans hs
    · exact nomatch hs.symm.trans hl
    · exact nomatch hs.symm.trans hl
  exact (run_of_step_keeps hkeeps k hs).1 t ht

/-- Waiting, a latch and an illegal word have a step, and a command has one or is refused by the table. -/
theorem step_ne_fault {s : State} (hs : s.Inv) (f : Fault) : step s ≠ .fault f := by
  intro h
  rcases hp : s.pending with _ | ⟨⟨cw, plat, mid⟩ | l, rest⟩
  case nil => exact nomatch (step_of_idle hp).symm.trans h
  case cons.latch => exact nomatch (step_of_latch hp).symm.trans h
  case cons.command =>
    rcases hd : decode cw with e | i
    · exact nomatch (step_of_illegal hp hd).symm.trans h
    · rw [step_of_legal hp hd] at h
      have htaken : State.Inv { s with pending := rest, plat := plat, midLatches := mid } := hs
      rcases exec_total htaken with ⟨t, ht⟩ | ⟨r, _, hr⟩
      · exact nomatch ht.symm.trans h
      · exact nomatch hr.symm.trans h

/-- Settles O57: every state of the run has the invariant, and there no step faults. -/
theorem runsNeverFault : Obligations.RunsNeverFault := by
  intro k s f hs h
  obtain ⟨s', hs', hf⟩ := (run_of_step_keeps stepKeepsInvariant k hs).2 f h
  exact step_ne_fault hs' f hf

end Sys2Proof.Machine
